-- ==== Sys2Proof/Word.lean ====
section
/-! DEFINITION. The words the command port moves (20_memory.md R26) and the group of eight of them that carries a
command's arguments and its results (10_state.md R17). -/

namespace Sys2Proof

/-- One word of the command port: 32 bits (20_memory.md R24, R26). -/
abbrev Word := BitVec 32

/-- One 16-bit field of a request or of a descriptor (41_synthesizer.md R60, R68). -/
abbrev Half := BitVec 16

/-- One bit for each of the 64 completion codes (10_state.md R13, R15, R18). -/
abbrev CodeMask := BitVec 64

/-- A completion code, `i < 64`; also the number of a channel, since "completion-code number = channel number"
(00_scope.md R6) and `CH_COUNT <= 64` (R1). -/
abbrev Code := Fin 64

/-- Eight words: `ARG[0..7]` of a command or `RES[0..7]` of a response (10_state.md R17). A word left out is 0
(30_encoding.md R39). -/
structure Words8 where
  w0 : Word := 0
  w1 : Word := 0
  w2 : Word := 0
  w3 : Word := 0
  w4 : Word := 0
  w5 : Word := 0
  w6 : Word := 0
  w7 : Word := 0
  deriving DecidableEq, Repr

/-- Eight zero words: every result word of a command that fails (00_scope.md, `fail`). -/
def Words8.zero : Words8 := ⟨0, 0, 0, 0, 0, 0, 0, 0⟩

end Sys2Proof
end

