-- ==== Sys2Proof/Config.lean ====
section
/-! DEFINITION. The parameters fixed when the block is built (00_scope.md R1 to R3), the constants among them, and the
free values: what the engine answers to a read that the spec calls a draw (10_state.md R19, 44_host_lifecycle.md R100). -/

namespace Sys2Proof

/-- The OPEN parameter `CLAIM_REVERSED`: what BM_CLAIM does with `start > end` (00_scope.md R1, 92_eei_decisions.md D14). -/
inductive ClaimReversed where
  | warnNoop
  | invalid
  deriving DecidableEq, Repr

/-- The OPEN parameter `CCOUNT_OVERFLOW`: what SYNTH does with a peripheral-direction `c_count` above 65535
(00_scope.md R1, 92_eei_decisions.md D20). -/
inductive CcountOverflow where
  | truncate16
  | reject
  deriving DecidableEq, Repr

/-- The implementation parameters of 00_scope.md R1. "None of them changes at run time." The last five are the
per-instance configuration that "no rule of the DRB" reads. -/
structure Params where
  /-- `CH_COUNT` -/
  chCount : Nat
  /-- `SLOT_MAX` -/
  slotMax : Nat
  /-- `CAP_CH` -/
  capCh : Nat
  /-- `CAP_CC` -/
  capCc : Nat
  /-- `CAP_SLOT` -/
  capSlot : Nat
  /-- `CLAIM_REVERSED` -/
  claimReversed : ClaimReversed
  /-- `CCOUNT_OVERFLOW` -/
  ccountOverflow : CcountOverflow
  /-- `REGION_ID` -/
  regionId : Nat := 0
  /-- `TRIGGER_QUEUE` -/
  triggerQueue : Nat := 0
  /-- The register base address. -/
  registerBase : Nat := 0
  /-- The interrupt line numbers. -/
  irqLines : List Nat := []
  /-- The interrupt priority. -/
  irqPriority : Nat := 0
  deriving DecidableEq, Repr

/-- The constraints of 00_scope.md R1. "A configuration that breaks a constraint is not a DRB, and a model refuses it." -/
abbrev Params.Valid (p : Params) : Prop :=
  1 ≤ p.chCount ∧ p.chCount ≤ 64 ∧ 1 ≤ p.slotMax ∧ p.slotMax ≤ p.capSlot ∧ p.chCount ≤ p.capCh ∧ p.capCh ≤ 65536 ∧
    p.chCount ≤ p.capCc ∧ p.capCc ≤ 65536 ∧ p.capSlot ≤ 65536

/-- The default configuration of 00_scope.md R3: "These values are not the hardware's. They are this spec's test
configuration." DESIGN CHOICE (log 1): State.reset holds it. -/
def Params.ofR3 : Params :=
  { chCount := 8, slotMax := 100, capCh := 64, capCc := 64, capSlot := 100,
    claimReversed := .warnNoop, ccountOverflow := .truncate16 }

/-- `W`: the width of one bitmap storage word (00_scope.md R1). -/
def wordWidth : Nat := 32

/-- `CV_WIDTH`: the width of the completion vector (00_scope.md R1). -/
def cvWidth : Nat := 64

/-- `LINK_NULL`: the `link` sentinel "no chained descriptor" (00_scope.md R1, 92_eei_decisions.md D25; log 27). -/
def linkNull : Half := 0xFFFF

/-- The three live counts of one descriptor, 16 bits each (10_state.md R19). -/
structure LiveCounts where
  aCount : Half
  bCount : Half
  cCount : Half
  deriving DecidableEq, Repr, Inhabited

/-- FREE VALUE (log 5). The answer to the `n`-th draw when it is a read `LIVE(c)`: "any triple of 16-bit values, under
no law" (10_state.md R19, 93_implementation_defined.md U4). -/
opaque Config.liveDraw : Nat → Code → LiveCounts

/-- FREE VALUE (log 6). The answer to the `n`-th draw when it is a read `ENG_EVENT_PENDING(c)` (44_host_lifecycle.md
R100, 93_implementation_defined.md U5). -/
opaque Config.eventPendingDraw : Nat → Code → Bool

/-- FREE VALUE (log 7). The answer to the `n`-th draw when it is `ENG_MAPPED_SLOT(c)` of a channel with no mapping
(44_host_lifecycle.md R100, 93_implementation_defined.md U6). -/
opaque Config.mappedSlotDraw : Nat → Code → Word

end Sys2Proof
end

