-- ==== Sys2Proof/Syntax.lean ====
section
/-! DEFINITION. The command set as syntax: the select values of 30_encoding.md R38, the direction codes of 10_state.md R11,
the request of 41_synthesizer.md R60, and one constructor of Instr for each row of spec/opcode_table.json (R41), with the
operands of R45. -/

namespace Sys2Proof

/-- The bitmap that `SEL` names, by the assembler's names of 30_encoding.md R38: `.CHAN`, `.CC`, `.SLOT`, `.NONE`. -/
inductive BmSel where
  | chan
  | cc
  | slot
  | none
  deriving DecidableEq, Repr

/-- The claim kind that `SEL` of BM_CLAIM names (30_encoding.md R38): ChannelPool, DescriptorSlotPool, and the two values
that name no kind. -/
inductive ClaimKind where
  | channelPool
  | descriptorSlotPool
  | kind2
  | kind3
  deriving DecidableEq, Repr

/-- The word of the enable mask that `SEL` of IEN_READ names (30_encoding.md R38): `.LO`, `.HI`. -/
inductive MaskHalf where
  | lo
  | hi
  deriving DecidableEq, Repr

/-- The direction of a channel (10_state.md R11). -/
inductive Direction where
  | idle
  | memToMem
  | memToPeripheral
  | peripheralToMemory
  deriving DecidableEq, Repr

/-- The request record of SYNTH, every field an unsigned number of the width that 41_synthesizer.md R60 gives it. -/
structure SynthRequest where
  direction : BitVec 8
  sourceAddr : Word
  destAddr : Word
  sourceElemSize : Half
  destElemSize : Half
  sourceBurst : Half
  destBurst : Half
  blockSize : Word
  completionCode : BitVec 6
  blockCount : Half
  deriving DecidableEq, Repr

/-- The commands of 30_encoding.md R41. -/
inductive Instr where
  /-- BM_ALLOC_RANGE.b start, end (40_allocator.md R47) -/
  | bmAllocRange (b : BmSel) (first last : Word)
  /-- BM_CLAIM.kind start, end (R49) -/
  | bmClaim (k : ClaimKind) (first last : Word)
  /-- BM_ACQUIRE.b i (R50) -/
  | bmAcquire (b : BmSel) (i : Word)
  /-- BM_ACQUIRE_ANY.b (R51) -/
  | bmAcquireAny (b : BmSel)
  /-- BM_RELEASE.b i (R52) -/
  | bmRelease (b : BmSel) (i : Word)
  /-- BM_TEST.b i (R54) -/
  | bmTest (b : BmSel) (i : Word)
  /-- BM_READ_WORD.b k (R53) -/
  | bmReadWord (b : BmSel) (k : Word)
  /-- SYNTH (41_synthesizer.md R59) -/
  | synth (q : SynthRequest)
  /-- SLOT_READ c (42_dispatcher.md R73) -/
  | slotRead (c : Word)
  /-- SLOT_WRITE c, dir, alloc, cben (R74) -/
  | slotWrite (c : Word) (dir : Direction) (alloc cben : Bool)
  /-- SLOT_TAS c (R75) -/
  | slotTas (c : Word)
  /-- SLOT_CLEAR c (R76) -/
  | slotClear (c : Word)
  /-- IEN_SET i (R78) -/
  | ienSet (i : Word)
  /-- IEN_CLR i (R77) -/
  | ienClr (i : Word)
  /-- IEN_READ.LO, IEN_READ.HI (R79) -/
  | ienRead (h : MaskHalf)
  /-- CFG_READ sel (43_system.md R94) -/
  | cfgRead (sel : Word)
  /-- DISP_READ (R95) -/
  | dispRead
  deriving DecidableEq, Repr

end Sys2Proof
end

