-- ==== Sys2Proof/WellFormed.lean ====
section
/-! DEFINITION. Which terms of Instr are commands of the block: the select values that 30_encoding.md R38 allows for each
opcode. The widths of the operands (R45) are in their types. -/

namespace Sys2Proof

/-- The select value names a bitmap; `SEL = 3` names none (30_encoding.md R38). -/
def BmSel.named : BmSel → Bool
  | .chan => true
  | .cc => true
  | .slot => true
  | .none => false

/-- The instruction's select value is allowed for its opcode (30_encoding.md R38). BM_ALLOC_RANGE admits the absent bitmap
and BM_CLAIM all four kinds; the six other bitmap commands need a bitmap. -/
def Instr.wellFormed : Instr → Bool
  | .bmAllocRange _ _ _ => true
  | .bmClaim _ _ _ => true
  | .bmAcquire b _ => b.named
  | .bmAcquireAny b => b.named
  | .bmRelease b _ => b.named
  | .bmTest b _ => b.named
  | .bmReadWord b _ => b.named
  | .synth _ => true
  | .slotRead _ => true
  | .slotWrite _ _ _ _ => true
  | .slotTas _ => true
  | .slotClear _ => true
  | .ienSet _ => true
  | .ienClr _ => true
  | .ienRead _ => true
  | .cfgRead _ => true
  | .dispRead => true

end Sys2Proof
end

