-- ==== Sys2Proof/Decode.lean ====
section
/-! DEFINITION. The decoder and the encoder (30_encoding.md R35 to R46), from one opcode map (R41), one table of allowed
select values (R38) and one layout of argument words (R45). Decoding is total: a command word that names no command is
rejected by name (R43). -/

namespace Sys2Proof

/-- What the host presents at the command port: the command word and the eight argument words (30_encoding.md R35). -/
structure Request where
  cmd : Word
  args : Words8
  deriving DecidableEq, Repr

/-- Why a command word names no command; all three give BAD_COMMAND (30_encoding.md R43). -/
inductive Reject where
  /-- `RSV` is not 0 (R37) -/
  | reservedBits
  /-- `OPC` is reserved (R42) -/
  | reservedOpcode
  /-- `SEL` is not allowed for the opcode (R38) -/
  | badSelect
  deriving DecidableEq, Repr

/-- What decoding a request gives. -/
inductive Decoded where
  | command (i : Instr)
  | reject (why : Reject)
  deriving DecidableEq, Repr

/-! ## The fields of a command word (30_encoding.md R35) -/

/-- `OPC = CMD[7:0]` -/
def opcField (cmd : Word) : BitVec 8 := cmd.extractLsb' 0 8

/-- `SEL = CMD[9:8]` -/
def selField (cmd : Word) : BitVec 2 := cmd.extractLsb' 8 2

/-- `RSV = CMD[31:10]` -/
def rsvField (cmd : Word) : BitVec 22 := cmd.extractLsb' 10 22

/-- "The command word of a command is `OPC | (SEL << 8)`" (30_encoding.md R41). -/
def commandWord (opc : BitVec 8) (sel : BitVec 2) : Word := opc.setWidth 32 ||| (sel.setWidth 32 <<< 8)

/-! ## The opcode map (30_encoding.md R41) -/

/-- The seventeen operations that an opcode selects (30_encoding.md R36, R41). -/
inductive Op where
  | bmAllocRange | bmClaim | bmAcquire | bmAcquireAny | bmRelease | bmTest | bmReadWord
  | synth
  | slotRead | slotWrite | slotTas | slotClear
  | ienSet | ienClr | ienRead
  | cfgRead | dispRead
  deriving DecidableEq, Repr

/-- The column OPC of 30_encoding.md R41. -/
def Op.opc : Op → BitVec 8
  | .bmAllocRange => 0x01
  | .bmClaim => 0x02
  | .bmAcquire => 0x03
  | .bmAcquireAny => 0x04
  | .bmRelease => 0x05
  | .bmTest => 0x06
  | .bmReadWord => 0x07
  | .synth => 0x10
  | .slotRead => 0x20
  | .slotWrite => 0x21
  | .slotTas => 0x22
  | .slotClear => 0x23
  | .ienSet => 0x28
  | .ienClr => 0x29
  | .ienRead => 0x2A
  | .cfgRead => 0x30
  | .dispRead => 0x31

/-- The rows of 30_encoding.md R41 in the table's order. -/
def Op.all : List Op :=
  [.bmAllocRange, .bmClaim, .bmAcquire, .bmAcquireAny, .bmRelease, .bmTest, .bmReadWord, .synth, .slotRead, .slotWrite,
    .slotTas, .slotClear, .ienSet, .ienClr, .ienRead, .cfgRead, .dispRead]

/-- "The opcode field alone selects the command" (30_encoding.md R36); none for a reserved value (R42). -/
def Op.ofOpc (c : BitVec 8) : Option Op := Op.all.find? fun op => op.opc == c

/-- The column SEL of 30_encoding.md R41, with the select values that R38 refuses. -/
def Op.selAllowed (op : Op) (sel : BitVec 2) : Bool :=
  match op with
  | .bmAllocRange => true
  | .bmClaim => true
  | .bmAcquire => decide (sel ≠ 3)
  | .bmAcquireAny => decide (sel ≠ 3)
  | .bmRelease => decide (sel ≠ 3)
  | .bmTest => decide (sel ≠ 3)
  | .bmReadWord => decide (sel ≠ 3)
  | .synth => decide (sel = 0)
  | .slotRead => decide (sel = 0)
  | .slotWrite => decide (sel = 0)
  | .slotTas => decide (sel = 0)
  | .slotClear => decide (sel = 0)
  | .ienSet => decide (sel = 0)
  | .ienClr => decide (sel = 0)
  | .ienRead => decide (sel = 0 ∨ sel = 1)
  | .cfgRead => decide (sel = 0)
  | .dispRead => decide (sel = 0)

/-! ## Select values (30_encoding.md R38) and direction codes (10_state.md R11) -/

/-- Bitmap selectors: 0 CHAN, 1 CC, 2 SLOT, 3 no bitmap. -/
def BmSel.ofBits (s : BitVec 2) : BmSel :=
  if s = 0 then .chan else if s = 1 then .cc else if s = 2 then .slot else .none

/-- The number of a bitmap selector. -/
def BmSel.toBits : BmSel → BitVec 2
  | .chan => 0
  | .cc => 1
  | .slot => 2
  | .none => 3

/-- Claim kinds: 0 ChannelPool, 1 DescriptorSlotPool, 2 and 3 no kind. -/
def ClaimKind.ofBits (s : BitVec 2) : ClaimKind :=
  if s = 0 then .channelPool else if s = 1 then .descriptorSlotPool else if s = 2 then .kind2 else .kind3

/-- The number of a claim kind. -/
def ClaimKind.toBits : ClaimKind → BitVec 2
  | .channelPool => 0
  | .descriptorSlotPool => 1
  | .kind2 => 2
  | .kind3 => 3

/-- IEN_READ: 0 the low word, 1 the high word. -/
def MaskHalf.ofBits (s : BitVec 2) : MaskHalf := if s = 0 then .lo else .hi

/-- The number of a word of the enable mask. -/
def MaskHalf.toBits : MaskHalf → BitVec 2
  | .lo => 0
  | .hi => 1

/-- Direction codes: 0 Idle, 1 MemToMem, 2 MemToPeripheral, 3 PeripheralToMemory (10_state.md R11). -/
def Direction.ofBits (d : BitVec 2) : Direction :=
  if d = 0 then .idle else if d = 1 then .memToMem else if d = 2 then .memToPeripheral else .peripheralToMemory

/-- The number of a direction (10_state.md R11). -/
def Direction.toBits : Direction → BitVec 2
  | .idle => 0
  | .memToMem => 1
  | .memToPeripheral => 2
  | .peripheralToMemory => 3

/-! ## Argument words (30_encoding.md R45) -/

/-- "two 16-bit halves in one 32-bit word" (00_scope.md, pack16): `lo` in bits 15..0, `hi` in bits 31..16. -/
def pack16 (lo hi : Half) : Word := lo.setWidth 32 ||| (hi.setWidth 32 <<< 16)

/-- Bits 15..0 of a word. -/
def loHalf (w : Word) : Half := w.extractLsb' 0 16

/-- Bits 31..16 of a word. -/
def hiHalf (w : Word) : Half := w.extractLsb' 16 16

/-- The request record of SYNTH (41_synthesizer.md R60); `ARG[0][31:8]` and `ARG[6][15:6]` are ignored. -/
def synthRequestOf (a : Words8) : SynthRequest :=
  { direction := a.w0.extractLsb' 0 8
    sourceAddr := a.w1
    destAddr := a.w2
    sourceElemSize := loHalf a.w3
    destElemSize := hiHalf a.w3
    sourceBurst := loHalf a.w4
    destBurst := hiHalf a.w4
    blockSize := a.w5
    completionCode := a.w6.extractLsb' 0 6
    blockCount := hiHalf a.w6 }

/-- The argument words of a SYNTH request, ignored bits 0. -/
def synthArgs (q : SynthRequest) : Words8 :=
  { w0 := q.direction.setWidth 32
    w1 := q.sourceAddr
    w2 := q.destAddr
    w3 := pack16 q.sourceElemSize q.destElemSize
    w4 := pack16 q.sourceBurst q.destBurst
    w5 := q.blockSize
    w6 := pack16 (q.completionCode.setWidth 16) q.blockCount }

/-- One bit as a word (00_scope.md, `zext_32`). -/
def bitWord (b : Bool) : Word := (BitVec.ofBool b).setWidth 32

/-- The layout of a channel slot in a word: bits 1..0 `DIR`, bit 8 `ALLOC`, bit 9 `CBEN`, other bits 0 (30_encoding.md
R45, SLOT_READ and SLOT_WRITE). -/
def slotFieldsWord (dir : Direction) (alloc cben : Bool) : Word :=
  dir.toBits.setWidth 32 ||| (bitWord alloc <<< 8) ||| (bitWord cben <<< 9)

/-! ## Decoding (30_encoding.md R43 to R45) -/

/-- The command that an operation, its select value and its argument words give; what a row of R45 does not name is
ignored (30_encoding.md R39, R45). -/
def assemble (op : Op) (sel : BitVec 2) (a : Words8) : Instr :=
  match op with
  | .bmAllocRange => .bmAllocRange (BmSel.ofBits sel) a.w0 a.w1
  | .bmClaim => .bmClaim (ClaimKind.ofBits sel) a.w0 a.w1
  | .bmAcquire => .bmAcquire (BmSel.ofBits sel) a.w0
  | .bmAcquireAny => .bmAcquireAny (BmSel.ofBits sel)
  | .bmRelease => .bmRelease (BmSel.ofBits sel) a.w0
  | .bmTest => .bmTest (BmSel.ofBits sel) a.w0
  | .bmReadWord => .bmReadWord (BmSel.ofBits sel) a.w0
  | .synth => .synth (synthRequestOf a)
  | .slotRead => .slotRead a.w0
  | .slotWrite => .slotWrite a.w0 (Direction.ofBits (a.w1.extractLsb' 0 2)) (a.w1.getLsbD 8) (a.w1.getLsbD 9)
  | .slotTas => .slotTas a.w0
  | .slotClear => .slotClear a.w0
  | .ienSet => .ienSet a.w0
  | .ienClr => .ienClr a.w0
  | .ienRead => .ienRead (MaskHalf.ofBits sel)
  | .cfgRead => .cfgRead a.w0
  | .dispRead => .dispRead

/-- The decoder: `RSV`, then `OPC`, then `SEL`, from the command word alone (30_encoding.md R43, R44). -/
def decode (r : Request) : Decoded :=
  if rsvField r.cmd ≠ 0 then .reject .reservedBits
  else
    match Op.ofOpc (opcField r.cmd) with
    | none => .reject .reservedOpcode
    | some op =>
      if op.selAllowed (selField r.cmd) then .command (assemble op (selField r.cmd) r.args) else .reject .badSelect

/-! ## Encoding -/

/-- The row of 30_encoding.md R41 that a command is of. -/
def Instr.op : Instr → Op
  | .bmAllocRange _ _ _ => .bmAllocRange
  | .bmClaim _ _ _ => .bmClaim
  | .bmAcquire _ _ => .bmAcquire
  | .bmAcquireAny _ => .bmAcquireAny
  | .bmRelease _ _ => .bmRelease
  | .bmTest _ _ => .bmTest
  | .bmReadWord _ _ => .bmReadWord
  | .synth _ => .synth
  | .slotRead _ => .slotRead
  | .slotWrite _ _ _ _ => .slotWrite
  | .slotTas _ => .slotTas
  | .slotClear _ => .slotClear
  | .ienSet _ => .ienSet
  | .ienClr _ => .ienClr
  | .ienRead _ => .ienRead
  | .cfgRead _ => .cfgRead
  | .dispRead => .dispRead

/-- A command's select value (30_encoding.md R38); 0 where 0 is the only value allowed. -/
def Instr.sel : Instr → BitVec 2
  | .bmAllocRange b _ _ => b.toBits
  | .bmClaim k _ _ => k.toBits
  | .bmAcquire b _ => b.toBits
  | .bmAcquireAny b => b.toBits
  | .bmRelease b _ => b.toBits
  | .bmTest b _ => b.toBits
  | .bmReadWord b _ => b.toBits
  | .synth _ => 0
  | .slotRead _ => 0
  | .slotWrite _ _ _ _ => 0
  | .slotTas _ => 0
  | .slotClear _ => 0
  | .ienSet _ => 0
  | .ienClr _ => 0
  | .ienRead h => h.toBits
  | .cfgRead _ => 0
  | .dispRead => 0

/-- A command's argument words (30_encoding.md R45); "Words left out are 0" (R46). -/
def Instr.args : Instr → Words8
  | .bmAllocRange _ first last => { w0 := first, w1 := last }
  | .bmClaim _ first last => { w0 := first, w1 := last }
  | .bmAcquire _ i => { w0 := i }
  | .bmAcquireAny _ => {}
  | .bmRelease _ i => { w0 := i }
  | .bmTest _ i => { w0 := i }
  | .bmReadWord _ k => { w0 := k }
  | .synth q => synthArgs q
  | .slotRead c => { w0 := c }
  | .slotWrite c dir alloc cben => { w0 := c, w1 := slotFieldsWord dir alloc cben }
  | .slotTas c => { w0 := c }
  | .slotClear c => { w0 := c }
  | .ienSet i => { w0 := i }
  | .ienClr i => { w0 := i }
  | .ienRead _ => {}
  | .cfgRead sel => { w0 := sel }
  | .dispRead => {}

/-- The encoder: the command word and the argument words of a command (30_encoding.md R41, R45). -/
def encode (i : Instr) : Request := { cmd := commandWord i.op.opc i.sel, args := i.args }

/-! ## The opcode table's numbering of bits -/

/-- The request whose bits are `w`: bits 31..0 are CMD, and `ARG[k]` follows at bits `32k+63 .. 32k+32`. The block "has
no byte order" (20_memory.md R24), so whole words are laid out, the command word first (DESIGN CHOICE, log 19). -/
def requestOfNat (w : Nat) : Request :=
  { cmd := BitVec.ofNat 32 w
    args :=
      { w0 := BitVec.ofNat 32 (w >>> 32)
        w1 := BitVec.ofNat 32 (w >>> 64)
        w2 := BitVec.ofNat 32 (w >>> 96)
        w3 := BitVec.ofNat 32 (w >>> 128)
        w4 := BitVec.ofNat 32 (w >>> 160)
        w5 := BitVec.ofNat 32 (w >>> 192)
        w6 := BitVec.ofNat 32 (w >>> 224)
        w7 := BitVec.ofNat 32 (w >>> 256) } }

/-- The request of an instruction of `nbits` bits, every bit above them 0. -/
def tableRequest (nbits w : Nat) : Request := requestOfNat (w % 2 ^ nbits)

/-- The instruction that the decoder reads from an instruction whose bits are `w`, numbered as spec/opcode_table.json
numbers them; none where the decoder rejects. -/
def decodeTableWord (nbits w : Nat) : Option Instr :=
  match decode (tableRequest nbits w) with
  | .command i => some i
  | .reject _ => none

end Sys2Proof
end

