-- ==== Sys2Proof/Machine/State.lean ====
section
/-! DEFINITION. The state of the whole system as plain data: the block (10_state.md R7 to R17, 70_reset_and_hazards.md
R129), its environment (the engine, R18 to R20, and the host that runs lifecycle procedures, 44_host_lifecycle.md), the
environment's choice of the coming moves (42_dispatcher.md R88), and the state after reset. -/

namespace Sys2Proof.Machine

/-! ## Statuses, events, the response (30_encoding.md R40, 10_state.md R16, R17) -/

/-- The status codes of 30_encoding.md R40. "A model's status type has only 0x00-0x0C" (93_implementation_defined.md U14). -/
inductive Status where
  | ok
  | rangeRejected
  | invalidResourceRange
  | allocationFailed
  | sizeMismatch
  | unsupported
  | unsupportedDirection
  | invalidChannel
  /-- Host protocol only; no command returns it (44_host_lifecycle.md R103). -/
  | notAllocated
  /-- Host protocol only; no command returns it (44_host_lifecycle.md R113). -/
  | cancelled
  | releaseFailed
  | indexRange
  | badCommand
  deriving DecidableEq, Repr

/-- The status of a completion (42_dispatcher.md R86). -/
inductive Completion where
  | complete
  | block
  deriving DecidableEq, Repr

/-- The events of `EVT` (10_state.md R16). -/
inductive Event where
  /-- `Callback(ch, st)` -/
  | callback (ch : Nat) (st : Completion)
  /-- `Warn(RANGE_REJECTED, b, s, e)`; selector `.none` stands for 3, the absent bitmap -/
  | rangeRejected (b : BmSel) (first last : Word)
  /-- `Warn(MULTI_BLOCK_IGNORED, n)` -/
  | multiBlockIgnored (n : Half)
  /-- `Warn(UNMAPPED_CODE, i)` -/
  | unmappedCode (i : Nat)
  deriving DecidableEq, Repr

/-- The output side of the command port: `STATUS` and `RES[0..7]` (10_state.md R17). -/
structure Response where
  status : Status
  res : Words8
  deriving DecidableEq, Repr

/-! ## Parts of the block's state -/

/-- The three bitmaps (00_scope.md R5). -/
inductive Bitmap where
  | chan
  | cc
  | slot
  deriving DecidableEq, Repr

/-- One entry of the channel slot table (10_state.md R10). -/
structure ChannelSlot where
  dir : Direction
  alloc : Bool
  cben : Bool
  deriving DecidableEq, Repr

/-- The reset value of a channel slot: `direction = Idle`, not allocated, no callback (10_state.md R10). -/
def ChannelSlot.clear : ChannelSlot := { dir := .idle, alloc := false, cben := false }

/-- `DSTATE` (10_state.md R15). -/
inductive DState where
  | idle
  | scanning
  deriving DecidableEq, Repr

/-! ## The engine (10_state.md R18 to R20, 44_host_lifecycle.md R100) -/

/-- The engine operations of the host (44_host_lifecycle.md R100). -/
inductive EngineOp where
  /-- `ENG_PROGRAM(s, D)` -/
  | program (s : Word) (d : Words8)
  /-- `ENG_MAP(c, s)` -/
  | map (c : Code) (s : Word)
  /-- `ENG_MAPPED_SLOT(c)` -/
  | mappedSlot (c : Code)
  /-- `ENG_UNMAP(c)` -/
  | unmap (c : Code)
  /-- `ENG_CLEAR_PENDING(c)` -/
  | clearPending (c : Code)
  /-- `ENG_MANUAL_TRIGGER(c)` -/
  | manualTrigger (c : Code)
  /-- `ENG_EVENT_ENABLE(c)` -/
  | eventEnable (c : Code)
  /-- `ENG_EVENT_DISABLE(c)` -/
  | eventDisable (c : Code)
  /-- `ENG_MANUAL_DISABLE(c)` -/
  | manualDisable (c : Code)
  /-- `ENG_READ_CV(c)` -/
  | readCv (c : Code)
  /-- `ENG_EVENT_PENDING(c)` -/
  | eventPending (c : Code)
  /-- `ENG_LIVE(c)` -/
  | live (c : Code)
  deriving DecidableEq, Repr

/-- What an engine operation returns (44_host_lifecycle.md R100); nothing for one that only changes engine state. -/
inductive EngineReply where
  | nothing
  | slot (s : Word)
  | bit (v : Bool)
  | counts (l : LiveCounts)
  deriving DecidableEq, Repr

/-- The engine's own state, as far as the engine operations of 44_host_lifecycle.md R100 write it (10_state.md R20; log 14,
log 16). The block never reads or writes it. -/
structure Engine where
  /-- The descriptor slot mapped to each channel. -/
  mapping : Vector (Option Word) 64
  /-- The event-pending flag of each channel. Nothing raises it and no read returns it (DESIGN CHOICE, log 31). -/
  eventPending : CodeMask
  /-- Event-triggered mode armed, for each channel. -/
  eventArmed : CodeMask
  /-- Manual triggering enabled, for each channel. -/
  manualEnabled : CodeMask
  /-- The manual triggers issued so far, oldest first. -/
  triggers : List Code
  /-- The descriptors programmed: slot number and the eight words, slot numbers strictly rising. -/
  descriptors : List (Nat × Words8)
  deriving DecidableEq, Repr

/-- The engine at power-on: nothing mapped, armed, triggered or programmed. DESIGN CHOICE (log 14): "unspecified; not
visible to the block" (70_reset_and_hazards.md R129). -/
def Engine.powerOn : Engine :=
  { mapping := Vector.replicate 64 none, eventPending := 0, eventArmed := 0, manualEnabled := 0, triggers := [],
    descriptors := [] }

/-! ## The host and its procedures (44_host_lifecycle.md) -/

/-- The request of CONFIGURE: the request fields of SYNTH (its completion code is replaced by the channel number, R106) and
the "callback requested" bit (44_host_lifecycle.md R104). -/
structure ConfigureRequest where
  fields : SynthRequest
  callback : Bool
  deriving DecidableEq, Repr

/-- One line of the static configuration list (44_host_lifecycle.md R102): "ordered triples (kind, start, end)". -/
structure ClaimTriple where
  kind : ClaimKind
  first : Word
  last : Word
  deriving DecidableEq, Repr

/-- The host's procedures (44_host_lifecycle.md R102 to R113). -/
inductive Procedure where
  | init (list : List ClaimTriple)
  | configure (c : Word) (req : ConfigureRequest)
  | start (c : Word)
  | stop (c : Word)
  | getStatus (c : Word)
  | deconfigure (c : Word)
  deriving DecidableEq, Repr

/-- One atomic step of a procedure: a block command or an engine operation (44_host_lifecycle.md R101). -/
inductive HostOp where
  | command (i : Instr)
  | engine (op : EngineOp)
  deriving DecidableEq, Repr

/-- What a step of a procedure got back. -/
inductive HostReply where
  | response (r : Response)
  | engine (v : EngineReply)
  deriving DecidableEq, Repr

/-- `Status{busy, direction, pending_length}` (44_host_lifecycle.md R112). -/
structure TransferStatus where
  busy : Bool
  direction : Direction
  pendingLength : Nat
  deriving DecidableEq, Repr

/-- What a procedure returns: "OK or one status name" (44_host_lifecycle.md R101), and the record of GET_STATUS. -/
structure ProcResult where
  status : Status
  report : Option TransferStatus
  deriving DecidableEq, Repr

/-- A procedure under way: which one, and the replies its steps have got so far, oldest first. The replies determine the
next step (log 12). -/
structure HostRun where
  proc : Procedure
  replies : List HostReply
  deriving DecidableEq, Repr

/-! ## Moves -/

/-- One choice of the environment: which agent moves next, and with what (42_dispatcher.md R88, 60_exceptions.md R128). -/
inductive Move where
  /-- The host issues a command at the port (43_system.md R93). -/
  | command (r : Request)
  /-- The host takes an engine operation outside a procedure (44_host_lifecycle.md R100). -/
  | engine (op : EngineOp)
  /-- The host calls a procedure; it waits while another runs (44_host_lifecycle.md R101). -/
  | call (p : Procedure)
  /-- The host takes the next step of the procedure it runs. -/
  | host
  /-- The dispatcher takes the step that is enabled (42_dispatcher.md R82, R84, R85). -/
  | dispatcher
  /-- `E_COMPLETE(i)` (42_dispatcher.md R81) -/
  | complete (i : Code)
  /-- Reset is applied (70_reset_and_hazards.md R130). -/
  | reset
  deriving DecidableEq, Repr

/-- The state of the block and of its environment. -/
structure State where
  /-- The build parameters (00_scope.md R1). -/
  cfg : Params
  /-- `BM[CHAN]`: element `i` is bit `i`; true is taken (10_state.md R7). -/
  bmChan : List Bool
  /-- `BM[CC]` -/
  bmCc : List Bool
  /-- `BM[SLOT]` -/
  bmSlot : List Bool
  /-- `CHS[0 .. CH_COUNT-1]` (10_state.md R10). -/
  chs : List ChannelSlot
  /-- `IEN[63:0]` (R13) -/
  ien : CodeMask
  /-- `GS` (R14) -/
  gs : Bool
  /-- `DSTATE` (R15) -/
  dstate : DState
  /-- `SNAP[63:0]` (R15) -/
  snap : CodeMask
  /-- `EVT`, oldest event first (R16). -/
  evt : List Event
  /-- `STATUS` and `RES[0..7]` (R17) -/
  resp : Response
  /-- `CV[63:0]`, the engine's completion vector (R18). -/
  cv : CodeMask
  /-- The rest of the engine's state (R20). -/
  engine : Engine
  /-- What the last engine operation returned (44_host_lifecycle.md R100; log 20). -/
  engReply : EngineReply
  /-- The procedure the host is running, if any (44_host_lifecycle.md R101). -/
  host : Option HostRun
  /-- What the last procedure to end returned (44_host_lifecycle.md R101, R116). -/
  result : Option ProcResult
  /-- The model's own: how many free values have been drawn (log 5). -/
  draws : Nat
  /-- The model's own: the environment's choice of the coming moves, the next one first (log 8). -/
  agenda : List Move
  deriving DecidableEq, Repr

/-- Why a step stops with a fault. There is no reason: "No condition makes the block trap, halt, enter a special mode or
change its flow" (60_exceptions.md R117); so no constructor, and nothing is raised. -/
inductive Fault where
  deriving DecidableEq, Repr

/-- Why a step is refused. -/
inductive Refusal where
  /-- The instruction has no meaning yet; raised only by an arm of `exec`. Safe: nothing is claimed of the instruction. -/
  | notModelled (mnemonic : String)
  /-- The parameters break a constraint of 00_scope.md R1, "not a DRB, and a model refuses it" (93_implementation_defined.md
  U20); raised by `step` before anything else. Safe: the spec refuses it too. -/
  | badConfiguration
  deriving DecidableEq, Repr

/-- The outcome of a step or of a command's meaning. -/
abbrev Result := Host.Outcome State Fault Refusal

/-- Everything at its reset value of 70_reset_and_hazards.md R129 for a block built with parameters `p`, over an engine
whose completion vector holds `cv` ("unspecified: a model draws it") and whose other state is `e`. -/
def State.powerOn (p : Params) (cv : CodeMask) (e : Engine) : State :=
  { cfg := p
    bmChan := List.replicate p.capCh false
    bmCc := List.replicate p.capCc false
    bmSlot := List.replicate p.capSlot false
    chs := List.replicate p.chCount ChannelSlot.clear
    ien := 0
    gs := false
    dstate := .idle
    snap := 0
    evt := []
    resp := { status := .ok, res := Words8.zero }
    cv := cv
    engine := e
    engReply := .nothing
    host := none
    result := none
    draws := 0
    agenda := [] }

/-- The machine right after reset, built with the default configuration of 00_scope.md R3 (DESIGN CHOICE, log 1), the
draw of the completion vector being 0 (DESIGN CHOICE, log 4). -/
def State.reset : State := State.powerOn Params.ofR3 0 Engine.powerOn

end Sys2Proof.Machine
end

