-- ==== Sys2Proof/Machine/Operands.lean ====
section
/-! DEFINITION. The operand and result forms of 30_encoding.md R45 that a meaning uses: a select value as a bitmap, a code
argument, a 64-bit quantity as two words, the result words of SLOT_READ, SYNTH, CFG_READ and DISP_READ. How argument words are taken
apart is in Decode.lean. -/

namespace Sys2Proof

/-- The bitmap a select value names (30_encoding.md R38); none for `SEL = 3`. -/
def BmSel.bitmap (b : BmSel) : Option Machine.Bitmap :=
  match b with
  | .chan => some .chan
  | .cc => some .cc
  | .slot => some .slot
  | .none => Option.none

end Sys2Proof

namespace Sys2Proof.Machine

/-- A bitmap as a select value, for the events that name it (10_state.md R16). -/
def Bitmap.sel (b : Bitmap) : BmSel :=
  match b with
  | .chan => .chan
  | .cc => .cc
  | .slot => .slot

/-- "A 64-bit quantity is always split into two words" (20_memory.md R24): bits 31..0. -/
def loWord (m : CodeMask) : Word := m.extractLsb' 0 32

/-- Bits 63..32 of a 64-bit quantity (20_memory.md R24). -/
def hiWord (m : CodeMask) : Word := m.extractLsb' 32 32

/-- A mask with bit `i` set. -/
def codeBit (i : Nat) : CodeMask := 1#64 <<< i

/-- `m[i] <- 1` -/
def maskSet (m : CodeMask) (i : Nat) : CodeMask := m ||| codeBit i

/-- `m[i] <- 0` -/
def maskClear (m : CodeMask) (i : Nat) : CodeMask := m &&& ~~~ codeBit i

/-- `min { i : m[i] = 1 }` (42_dispatcher.md R83), none when no bit is set. -/
def lowestSet (m : CodeMask) : Option Nat := (List.range 64).find? fun i => m.getLsbD i

/-- A parameter as a result word (43_system.md R94). -/
def natWord (n : Nat) : Word := BitVec.ofNat 32 n

/-- `RES[0]` of SLOT_READ (42_dispatcher.md R73). -/
def ChannelSlot.word (c : ChannelSlot) : Word := slotFieldsWord c.dir c.alloc c.cben

/-- `RES[0]` of DISP_READ: bit 0 = `GS`, bit 1 = `DSTATE` (1 = Scanning) (43_system.md R95). -/
def dispatcherWord (gs : Bool) (d : DState) : Word := bitWord gs ||| (bitWord (decide (d = .scanning)) <<< 1)

end Sys2Proof.Machine

namespace Sys2Proof

/-- `RES[0]` of CFG_READ 8: bit 0 for `CLAIM_REVERSED = Invalid`, bit 1 for `CCOUNT_OVERFLOW = Reject` (43_system.md R94). -/
def Params.openChoices (p : Params) : Word :=
  bitWord (decide (p.claimReversed = .invalid)) ||| (bitWord (decide (p.ccountOverflow = .reject)) <<< 1)

/-- The parameter that a selector of CFG_READ names, none for a selector of 9 or more (43_system.md R94). -/
def Params.read (p : Params) (sel : Nat) : Option Word :=
  match sel with
  | 0 => some (Machine.natWord p.chCount)
  | 1 => some (Machine.natWord p.slotMax)
  | 2 => some (Machine.natWord p.capCh)
  | 3 => some (Machine.natWord p.capCc)
  | 4 => some (Machine.natWord p.capSlot)
  | 5 => some (Machine.natWord wordWidth)
  | 6 => some (Machine.natWord cvWidth)
  | 7 => some (linkNull.setWidth 32)
  | 8 => some (p.openChoices)
  | _ => none

end Sys2Proof
end

