-- ==== Sys2Proof/Machine/Flags.lean ====
section
/-! DEFINITION. "The block has no condition flags" (10_state.md R21): a command's only status is its STATUS code, numbered
here (30_encoding.md R40). The one flag of the block is the group status GS; the three ways it is computed (R14) and the
completion status (42_dispatcher.md R86) stand here. -/

namespace Sys2Proof.Machine

/-- The number of a status (30_encoding.md R40). -/
def Status.code (st : Status) : BitVec 8 :=
  match st with
  | .ok => 0x00
  | .rangeRejected => 0x01
  | .invalidResourceRange => 0x02
  | .allocationFailed => 0x03
  | .sizeMismatch => 0x04
  | .unsupported => 0x05
  | .unsupportedDirection => 0x06
  | .invalidChannel => 0x07
  | .notAllocated => 0x08
  | .cancelled => 0x09
  | .releaseFailed => 0x0A
  | .indexRange => 0x0B
  | .badCommand => 0x0C

/-- `GS` after IEN_SET i: raised if the code's completion bit is already set (42_dispatcher.md R78). -/
def gsOnEnable (gs : Bool) (cv : CodeMask) (i : Nat) : Bool := gs || cv.getLsbD i

/-- `GS` after E_COMPLETE(i): raised if the code is enabled (42_dispatcher.md R81). -/
def gsOnComplete (gs : Bool) (ien : CodeMask) (i : Nat) : Bool := gs || ien.getLsbD i

/-- `GS` after D_EXIT: cleared, then re-evaluated once (42_dispatcher.md R85). -/
def gsReevaluated (cv ien : CodeMask) : Bool := decide (cv &&& ien ≠ 0)

end Sys2Proof.Machine

namespace Sys2Proof

/-- `pending_length = a * b * c`, exact (42_dispatcher.md R84, R86). -/
def LiveCounts.pendingLength (l : LiveCounts) : Nat := l.aCount.toNat * l.bCount.toNat * l.cCount.toNat

end Sys2Proof

namespace Sys2Proof.Machine

/-- The completion status: Block when `pending_length != 0`, else Complete (42_dispatcher.md R86). -/
def completionStatus (l : LiveCounts) : Completion := if l.pendingLength = 0 then .complete else .block

/-- The number of a completion status in `Callback(ch, st)` (42_dispatcher.md R86). -/
def Completion.code (st : Completion) : Nat :=
  match st with
  | .complete => 0
  | .block => 1

end Sys2Proof.Machine
end

