-- ==== Sys2Proof/Machine/Ops.lean ====
section
/-! DEFINITION. The named operations every meaning is written over: how a command ends (`ok`, `fail`) and emits
(00_scope.md, pseudocode primitives), the bitmaps (10_state.md R7, R8), the channel slot table (R10), and taking the
block's one interrupt (D_ENTRY, 60_exceptions.md R123) with the return from it beside it (D_EXIT, R124). -/

namespace Sys2Proof.Machine

/-! ## How a command ends -/

/-- `STATUS` and `RES` of the response (10_state.md R17). -/
def State.respond (s : State) (st : Status) (r : Words8) : State := { s with resp := { status := st, res := r } }

/-- `ok`: ends the command with `STATUS <- OK` (00_scope.md). -/
def ok (r : Words8) (s : State) : Result := .next (s.respond .ok r)

/-- `fail CODE`: ends the command with `STATUS <- CODE` and every result word 0 (00_scope.md). -/
def fail (st : Status) (s : State) : Result := .next (s.respond st Words8.zero)

/-- `emit E`: appends event `E` to `EVT` (00_scope.md, 10_state.md R16). -/
def State.emit (s : State) (e : Event) : State := { s with evt := s.evt ++ [e] }

/-! ## Bitmaps -/

end Sys2Proof.Machine

namespace Sys2Proof

/-- `CAP(b)` (00_scope.md R2). -/
def Params.cap (p : Params) (b : Machine.Bitmap) : Nat :=
  match b with
  | .chan => p.capCh
  | .cc => p.capCc
  | .slot => p.capSlot

end Sys2Proof

namespace Sys2Proof.Machine

/-- `NW(b) = ceil(CAP(b) / 32)` (00_scope.md R2). -/
def numWords (cap : Nat) : Nat := (cap + 31) / 32

/-- The bits of bitmap `b`. -/
def State.bm (s : State) (b : Bitmap) : List Bool :=
  match b with
  | .chan => s.bmChan
  | .cc => s.bmCc
  | .slot => s.bmSlot

/-- Bitmap `b` with the bits `l`; "A write to one bitmap never changes another" (00_scope.md R5). -/
def State.setBm (s : State) (b : Bitmap) (l : List Bool) : State :=
  match b with
  | .chan => { s with bmChan := l }
  | .cc => { s with bmCc := l }
  | .slot => { s with bmSlot := l }

/-- `BM[b][i]` (10_state.md R7); an index the bitmap has no bit for reads 0 (the padding of R8). -/
def State.bit (s : State) (b : Bitmap) (i : Nat) : Bool := (s.bm b).getD i false

/-- `BM[b][i] <- v` -/
def State.setBit (s : State) (b : Bitmap) (i : Nat) (v : Bool) : State := s.setBm b ((s.bm b).set i v)

/-- The bits from index `at0` on, with those of `[first, last]` set (40_allocator.md R47). -/
def setRangeFrom (first last : Nat) : Nat → List Bool → List Bool
  | _, [] => []
  | at0, b :: bs => (b || (decide (first ≤ at0) && decide (at0 ≤ last))) :: setRangeFrom first last (at0 + 1) bs

/-- `for i in first .. last: BM[b][i] <- 1` (40_allocator.md R47, R49). -/
def State.setRange (s : State) (b : Bitmap) (first last : Nat) : State := s.setBm b (setRangeFrom first last 0 (s.bm b))

/-- The lowest index whose bit is 0 (40_allocator.md R51), none when every bit is set. -/
def lowestFree (l : List Bool) : Option Nat := l.findIdx? fun b => !b

/-- `BMW(b, k)`: bit `j` is `BM[b][32k + j]`, padding bits 0 (10_state.md R8). -/
def State.bmWord (s : State) (b : Bitmap) (k : Nat) : Word := BitVec.ofFnLE fun j : Fin 32 => s.bit b (32 * k + j.val)

/-! ## The channel slot table -/

/-- `CHS[c] <- v`; only called with `c < CH_COUNT`. -/
def State.setSlot (s : State) (c : Nat) (v : ChannelSlot) : State := { s with chs := s.chs.set c v }

/-- `CHS[c]`; only read with `c < CH_COUNT`. -/
def State.slotAt (s : State) (c : Nat) : ChannelSlot := s.chs.getD c ChannelSlot.clear

/-! ## The interrupt: entry and return -/

/-- A dispatcher invocation may start: `DSTATE = Idle` and `GS = 1` (42_dispatcher.md R82). -/
def State.entryEnabled (s : State) : Bool := decide (s.dstate = .idle) && s.gs

/-- D_ENTRY: takes the interrupt by taking the snapshot. "It saves nothing" (60_exceptions.md R123); `GS` and `CV` are
unchanged (42_dispatcher.md R82). -/
def dEntry (s : State) : State := { s with snap := s.cv, dstate := .scanning }

/-- D_EXIT: the return from the interrupt. Clears `GS`, re-evaluates it once, and sets `DSTATE = Idle` (42_dispatcher.md R85,
60_exceptions.md R124). -/
def dExit (s : State) : State := { s with gs := gsReevaluated s.cv s.ien, dstate := .idle }

end Sys2Proof.Machine
end

