-- ==== Sys2Proof/Machine/Allocator.lean ====
section
/-! DEFINITION. The Resource Bitmap Allocator commands, one definition each (40_allocator.md R47 to R58), and the
word-level form of BM_ALLOC_RANGE (R48), "A model may use either form": the meaning uses the bit loop of R47. -/

namespace Sys2Proof.Machine

/-- BM_ALLOC_RANGE.b start, end (40_allocator.md R47). -/
def execBmAllocRange (b : BmSel) (first last : Word) (s : State) : Result :=
  match b.bitmap with
  | none => fail .rangeRejected (s.emit (.rangeRejected b first last))
  | some m =>
    if first.toNat > last.toNat ∨ last.toNat ≥ s.cfg.cap m then
      fail .rangeRejected (s.emit (.rangeRejected b first last))
    else ok Words8.zero (s.setRange m first.toNat last.toNat)

/-- `LIM` of a claim kind (40_allocator.md R49); none for a select value that names no kind. -/
def claimLimit (p : Params) (k : ClaimKind) : Option Nat :=
  match k with
  | .channelPool => some p.chCount
  | .descriptorSlotPool => some p.slotMax
  | .kind2 => none
  | .kind3 => none

/-- `TARGETS` of a claim kind, in list order (40_allocator.md R49). -/
def claimTargets (k : ClaimKind) : List Bitmap :=
  match k with
  | .channelPool => [.chan, .cc]
  | .descriptorSlotPool => [.slot]
  | .kind2 => []
  | .kind3 => []

/-- One `Warn(RANGE_REJECTED, t, s, e)` for each target, in list order (40_allocator.md R49). -/
def warnTargets (ts : List Bitmap) (first last : Word) (s : State) : State :=
  ts.foldl (fun acc t => acc.emit (.rangeRejected (Bitmap.sel t) first last)) s

/-- The range set in each target (40_allocator.md R49). -/
def setTargets (ts : List Bitmap) (first last : Nat) (s : State) : State :=
  ts.foldl (fun acc t => acc.setRange t first last) s

/-- BM_CLAIM.kind start, end (40_allocator.md R49): kind, then `end`, then `start > end` (60_exceptions.md R118). -/
def execBmClaim (k : ClaimKind) (first last : Word) (s : State) : Result :=
  match claimLimit s.cfg k with
  | none => fail .invalidResourceRange s
  | some lim =>
    if last.toNat ≥ lim then fail .invalidResourceRange s
    else if first.toNat > last.toNat then
      match s.cfg.claimReversed with
      | .invalid => fail .invalidResourceRange s
      | .warnNoop => ok Words8.zero (warnTargets (claimTargets k) first last s)
    else ok Words8.zero (setTargets (claimTargets k) first.toNat last.toNat s)

/-- BM_ACQUIRE.b i (40_allocator.md R50). `SEL = 3` names no bitmap and is no command (30_encoding.md R38); the decoder
rejects it, and so does this. -/
def execBmAcquire (b : BmSel) (i : Word) (s : State) : Result :=
  match b.bitmap with
  | none => fail .badCommand s
  | some m =>
    if i.toNat ≥ s.cfg.cap m then fail .indexRange s
    else if s.bit m i.toNat then fail .allocationFailed s
    else ok { w0 := i } (s.setBit m i.toNat true)

/-- BM_ACQUIRE_ANY.b (40_allocator.md R51). -/
def execBmAcquireAny (b : BmSel) (s : State) : Result :=
  match b.bitmap with
  | none => fail .badCommand s
  | some m =>
    match lowestFree (s.bm m) with
    | none => fail .allocationFailed s
    | some i => ok { w0 := natWord i } (s.setBit m i true)

/-- BM_RELEASE.b i (40_allocator.md R52). -/
def execBmRelease (b : BmSel) (i : Word) (s : State) : Result :=
  match b.bitmap with
  | none => fail .badCommand s
  | some m =>
    if i.toNat ≥ s.cfg.cap m then fail .indexRange s
    else if s.bit m i.toNat then ok Words8.zero (s.setBit m i.toNat false)
    else fail .releaseFailed s

/-- BM_TEST.b i (40_allocator.md R54). -/
def execBmTest (b : BmSel) (i : Word) (s : State) : Result :=
  match b.bitmap with
  | none => fail .badCommand s
  | some m =>
    if i.toNat ≥ s.cfg.cap m then fail .indexRange s
    else ok { w0 := bitWord (s.bit m i.toNat) } s

/-- BM_READ_WORD.b k (40_allocator.md R53). -/
def execBmReadWord (b : BmSel) (k : Word) (s : State) : Result :=
  match b.bitmap with
  | none => fail .badCommand s
  | some m =>
    if k.toNat ≥ numWords (s.cfg.cap m) then fail .indexRange s
    else ok { w0 := s.bmWord m k.toNat } s

/-! ## The word-level form (40_allocator.md R48) -/

/-- `HEAD`: bits `lo .. 31`. -/
def headMask (lo : Nat) : Word := 0xFFFFFFFF#32 <<< lo

/-- `TAIL`: bits `0 .. hi`. -/
def tailMask (hi : Nat) : Word := 0xFFFFFFFF#32 >>> (31 - hi)

/-- Storage word `k` after an accepted range, from the word before (40_allocator.md R48): a single masked OR, or a partial
first word, full interior words and a partial last word. -/
def rangeWord (first last k : Nat) (w : Word) : Word :=
  if first / 32 = last / 32 then
    if k = first / 32 then w ||| (headMask (first % 32) &&& tailMask (last % 32)) else w
  else if k = first / 32 then w ||| headMask (first % 32)
  else if first / 32 < k ∧ k < last / 32 then 0xFFFFFFFF#32
  else if k = last / 32 then w ||| tailMask (last % 32)
  else w

end Sys2Proof.Machine
end

