-- ==== Sys2Proof/Machine/EnableMask.lean ====
section
/-! DEFINITION. The completion-interrupt enable commands, one definition each (42_dispatcher.md R77 to R79). -/

namespace Sys2Proof.Machine

/-- IEN_SET i: enables code `i`; raises `GS` if its completion bit is already set (42_dispatcher.md R78). -/
def execIenSet (i : Word) (s : State) : Result :=
  if i.toNat ≥ 64 then fail .indexRange s
  else ok Words8.zero { s with ien := maskSet s.ien i.toNat, gs := gsOnEnable s.gs s.cv i.toNat }

/-- IEN_CLR i: disables code `i`; "A `GS` already set stays set" (42_dispatcher.md R77). -/
def execIenClr (i : Word) (s : State) : Result :=
  if i.toNat ≥ 64 then fail .indexRange s
  else ok Words8.zero { s with ien := maskClear s.ien i.toNat }

/-- IEN_READ.LO, IEN_READ.HI (42_dispatcher.md R79). -/
def execIenRead (h : MaskHalf) (s : State) : Result :=
  match h with
  | .lo => ok { w0 := loWord s.ien } s
  | .hi => ok { w0 := hiWord s.ien } s

end Sys2Proof.Machine
end

