-- ==== Sys2Proof/Machine/SlotTable.lean ====
section
/-! DEFINITION. The channel slot commands, one definition each (42_dispatcher.md R73 to R76). -/

namespace Sys2Proof.Machine

/-- SLOT_READ c (42_dispatcher.md R73). -/
def execSlotRead (c : Word) (s : State) : Result :=
  if c.toNat ≥ s.cfg.chCount then fail .invalidChannel s
  else ok { w0 := (s.slotAt c.toNat).word } s

/-- SLOT_WRITE c, dir, alloc, cben: all three fields in one step, stored as given (42_dispatcher.md R74). -/
def execSlotWrite (c : Word) (dir : Direction) (alloc cben : Bool) (s : State) : Result :=
  if c.toNat ≥ s.cfg.chCount then fail .invalidChannel s
  else ok Words8.zero (s.setSlot c.toNat { dir := dir, alloc := alloc, cben := cben })

/-- SLOT_TAS c: returns `ALLOC` and sets it (42_dispatcher.md R75). -/
def execSlotTas (c : Word) (s : State) : Result :=
  if c.toNat ≥ s.cfg.chCount then fail .invalidChannel s
  else ok { w0 := bitWord (s.slotAt c.toNat).alloc } (s.setSlot c.toNat { s.slotAt c.toNat with alloc := true })

/-- SLOT_CLEAR c: the slot's reset value (42_dispatcher.md R76). -/
def execSlotClear (c : Word) (s : State) : Result :=
  if c.toNat ≥ s.cfg.chCount then fail .invalidChannel s
  else ok Words8.zero (s.setSlot c.toNat ChannelSlot.clear)

end Sys2Proof.Machine
end

