-- ==== Sys2Proof/Machine/Synthesizer.lean ====
section
/-! DEFINITION. The Transfer Descriptor Synthesizer (41_synthesizer.md R59 to R72): the checks in the order of R61, the counts
(R64, R66, R67), the strides (R68), the descriptor and its layout in the result words (R69, R70), and SYNTH over them. -/

namespace Sys2Proof.Machine

/-- One transfer descriptor (41_synthesizer.md R68 to R70). -/
structure Descriptor where
  srcAddr : Word
  destAddr : Word
  aCount : Half
  bCount : Half
  cCount : Half
  bCountReload : Half
  srcBIndex : Half
  dstBIndex : Half
  srcBIndexExt : BitVec 8
  dstBIndexExt : BitVec 8
  srcCIndex : Half
  dstCIndex : Half
  link : Half
  opt : Word
  deriving DecidableEq, Repr

/-- The counts `(a, b, brld, c)` (41_synthesizer.md R59). -/
structure Counts where
  a : Half
  b : Half
  brld : Half
  c : Half
  deriving DecidableEq, Repr

/-- The strides of one side: the 24-bit B-dimension stride and the C-dimension stride (41_synthesizer.md R68). -/
structure Strides where
  b : BitVec 24
  c : Half
  deriving DecidableEq, Repr

/-- The three supported directions (41_synthesizer.md R61): codes 1, 2 and 3; every other 8-bit code is unsupported. -/
def supportedDirection (d : BitVec 8) : Option Direction :=
  if d = 1 then some .memToMem else if d = 2 then some .memToPeripheral else if d = 3 then some .peripheralToMemory
  else none

/-- `multiple(x, d)`: `d != 0` and `x mod d = 0` (00_scope.md, 92_eei_decisions.md D19). -/
def multiple (x d : Nat) : Bool := decide (d ≠ 0 ∧ x % d = 0)

/-- `check_m2m(q)`: the status of the first check that fails (41_synthesizer.md R63). -/
def checkM2m (q : SynthRequest) : Option Status :=
  if q.sourceElemSize ≠ q.destElemSize then some .sizeMismatch
  else if !multiple q.blockSize.toNat q.sourceElemSize.toNat then some .unsupported
  else if q.blockSize.toNat / q.sourceElemSize.toNat > 65535 then some .unsupported
  else none

/-- `counts_m2m(q)` (41_synthesizer.md R64). -/
def countsM2m (q : SynthRequest) : Counts :=
  let b := BitVec.ofNat 16 (q.blockSize.toNat / q.sourceElemSize.toNat)
  { a := q.sourceElemSize, b := b, brld := b, c := 1 }

/-- `check_periph(q)` (41_synthesizer.md R65). -/
def checkPeriph (q : SynthRequest) : Option Status :=
  if q.sourceElemSize ≠ q.destElemSize ∨ q.sourceBurst ≠ q.destBurst then some .sizeMismatch
  else if !multiple q.sourceBurst.toNat q.sourceElemSize.toNat || !multiple q.blockSize.toNat q.sourceBurst.toNat then
    some .unsupported
  else none

/-- The `c_count` field of a full count (41_synthesizer.md R67); none where `CCOUNT_OVERFLOW = Reject` refuses it. -/
def cCountField (o : CcountOverflow) (cfull : Nat) : Option Half :=
  if cfull ≤ 65535 then some (BitVec.ofNat 16 cfull)
  else
    match o with
    | .reject => none
    | .truncate16 => some (BitVec.ofNat 16 (cfull % 65536))

/-- `counts_periph(q)` (41_synthesizer.md R66, R67). -/
def countsPeriph (o : CcountOverflow) (q : SynthRequest) : Option Counts :=
  let b := BitVec.ofNat 16 (q.sourceBurst.toNat / q.sourceElemSize.toNat)
  match cCountField o (q.blockSize.toNat / q.sourceBurst.toNat) with
  | none => none
  | some c => some { a := q.sourceElemSize, b := b, brld := b, c := c }

/-- The strides of the source side (41_synthesizer.md R68). -/
def srcStrides (d : Direction) (a sb : Half) : Strides :=
  match d with
  | .idle => { b := 0, c := 0 }
  | .memToMem => { b := a.setWidth 24, c := a }
  | .memToPeripheral => { b := a.setWidth 24, c := sb }
  | .peripheralToMemory => { b := 0, c := 0 }

/-- The strides of the destination side (41_synthesizer.md R68). -/
def dstStrides (d : Direction) (a sb : Half) : Strides :=
  match d with
  | .idle => { b := 0, c := 0 }
  | .memToMem => { b := a.setWidth 24, c := a }
  | .memToPeripheral => { b := 0, c := 0 }
  | .peripheralToMemory => { b := a.setWidth 24, c := sb }

/-- The options word: TCINTEN bit 20, TCC bits 17..12, SYNCDIM bit 2 (41_synthesizer.md R70; log 27). -/
def optionsWord (cc : BitVec 6) : Word := (1#32 <<< 20) ||| (cc.setWidth 32 <<< 12) ||| (1#32 <<< 2)

/-- The descriptor of a request whose checks passed (41_synthesizer.md R68 to R70). -/
def descriptor (q : SynthRequest) (d : Direction) (k : Counts) : Descriptor :=
  let src := srcStrides d k.a q.sourceBurst
  let dst := dstStrides d k.a q.sourceBurst
  { srcAddr := q.sourceAddr
    destAddr := q.destAddr
    aCount := k.a
    bCount := k.b
    cCount := k.c
    bCountReload := k.brld
    srcBIndex := src.b.extractLsb' 0 16
    dstBIndex := dst.b.extractLsb' 0 16
    srcBIndexExt := src.b.extractLsb' 16 8
    dstBIndexExt := dst.b.extractLsb' 16 8
    srcCIndex := src.c
    dstCIndex := dst.c
    link := linkNull
    opt := optionsWord q.completionCode }

/-- The descriptor, or the status of the first check that fails, in the order of 41_synthesizer.md R61. -/
def synthesize (o : CcountOverflow) (q : SynthRequest) : Except Status Descriptor :=
  match supportedDirection q.direction with
  | none => .error .unsupportedDirection
  | some .memToMem =>
    match checkM2m q with
    | some st => .error st
    | none => .ok (descriptor q .memToMem (countsM2m q))
  | some d =>
    match checkPeriph q with
    | some st => .error st
    | none =>
      match countsPeriph o q with
      | none => .error .unsupported
      | some k => .ok (descriptor q d k)

/-- The result words of a descriptor (41_synthesizer.md R70). -/
def Descriptor.words (d : Descriptor) : Words8 :=
  { w0 := d.srcAddr
    w1 := d.destAddr
    w2 := pack16 d.aCount d.bCount
    w3 := pack16 d.cCount d.bCountReload
    w4 := pack16 d.srcBIndex d.dstBIndex
    w5 := pack16 d.srcCIndex d.dstCIndex
    w6 := d.srcBIndexExt.setWidth 32 ||| (d.dstBIndexExt.setWidth 32 <<< 8) ||| (d.link.setWidth 32 <<< 16)
    w7 := d.opt }

/-- The warning of a request with more than one block, emitted before every check (41_synthesizer.md R62). -/
def warnBlocks (n : Half) (s : State) : State := if n.toNat > 1 then s.emit (.multiBlockIgnored n) else s

/-- SYNTH (41_synthesizer.md R59). -/
def execSynth (q : SynthRequest) (s : State) : Result :=
  match synthesize s.cfg.ccountOverflow q with
  | .error st => fail st (warnBlocks q.blockCount s)
  | .ok d => ok d.words (warnBlocks q.blockCount s)

end Sys2Proof.Machine
end

