-- ==== Sys2Proof/Machine/System.lean ====
section
/-! DEFINITION. The system commands, one definition each (43_system.md R94, R95). -/

namespace Sys2Proof.Machine

/-- CFG_READ sel (43_system.md R94). -/
def execCfgRead (sel : Word) (s : State) : Result :=
  match s.cfg.read sel.toNat with
  | none => fail .indexRange s
  | some w => ok { w0 := w } s

/-- DISP_READ (43_system.md R95). -/
def execDispRead (s : State) : Result :=
  ok { w0 := dispatcherWord s.gs s.dstate, w1 := loWord s.snap, w2 := hiWord s.snap } s

end Sys2Proof.Machine
end

