-- ==== Sys2Proof/Machine/Dispatch.lean ====
section
/-! DEFINITION. One arm per command of 30_encoding.md R41. -/

namespace Sys2Proof.Machine

def exec (i : Instr) (s : State) : Host.Outcome State Fault Refusal :=
  match i with
  | .bmAllocRange b first last => Sys2Proof.Machine.execBmAllocRange b first last s
  | .bmClaim k first last => Sys2Proof.Machine.execBmClaim k first last s
  | .bmAcquire b i1 => Sys2Proof.Machine.execBmAcquire b i1 s
  | .bmAcquireAny b => Sys2Proof.Machine.execBmAcquireAny b s
  | .bmRelease b i1 => Sys2Proof.Machine.execBmRelease b i1 s
  | .bmTest b i1 => Sys2Proof.Machine.execBmTest b i1 s
  | .bmReadWord b k => Sys2Proof.Machine.execBmReadWord b k s
  | .synth q => Sys2Proof.Machine.execSynth q s
  | .slotRead c => Sys2Proof.Machine.execSlotRead c s
  | .slotWrite c dir alloc cben => Sys2Proof.Machine.execSlotWrite c dir alloc cben s
  | .slotTas c => Sys2Proof.Machine.execSlotTas c s
  | .slotClear c => Sys2Proof.Machine.execSlotClear c s
  | .ienSet i1 => Sys2Proof.Machine.execIenSet i1 s
  | .ienClr i1 => Sys2Proof.Machine.execIenClr i1 s
  | .ienRead h => Sys2Proof.Machine.execIenRead h s
  | .cfgRead sel => Sys2Proof.Machine.execCfgRead sel s
  | .dispRead => Sys2Proof.Machine.execDispRead s

end Sys2Proof.Machine
end

