-- ==== Sys2Proof/Machine/Completion.lean ====
section
/-! DEFINITION. The Interrupt Completion Dispatcher (42_dispatcher.md R80 to R92), the engine's completion step (R81), and the
block's reset (70_reset_and_hazards.md R130). D_ENTRY and D_EXIT stand in Ops.lean. -/

namespace Sys2Proof.Machine

/-- D_BIT's handling of an acknowledged code with a channel: the live counts `l`, the status, and the event if a callback is
registered; "a channel with no registered callback is scanned and acknowledged but silently skipped" (42_dispatcher.md
R84). -/
def handleCode (i : Nat) (l : LiveCounts) (s : State) : State :=
  if (s.slotAt i).cben then s.emit (.callback i (completionStatus l)) else s

/-- D_BIT's acknowledgement: `CV[i] <- 0`, `SNAP[i] <- 0` (42_dispatcher.md R84). -/
def acknowledge (i : Nat) (s : State) : State := { s with cv := maskClear s.cv i, snap := maskClear s.snap i }

/-- A read `LIVE(i)`: a free value, numbered by `draws` (10_state.md R19; log 5). -/
def State.live (s : State) (i : Code) : LiveCounts := Config.liveDraw s.draws i

/-- One free value has been drawn (log 5). -/
def State.drawn (s : State) : State := { s with draws := s.draws + 1 }

/-- D_BIT of code `i`, with the live counts given; they are not read for a code with no channel (42_dispatcher.md R84). -/
def dBitWith (i : Nat) (l : LiveCounts) (s : State) : State :=
  if i ≥ s.cfg.chCount then (acknowledge i s).emit (.unmappedCode i)
  else handleCode i l (acknowledge i s).drawn

/-- D_BIT: the lowest code of the snapshot (42_dispatcher.md R83, R84). With an empty snapshot D_BIT is not enabled. -/
def dBit (s : State) : State :=
  match lowestSet s.snap with
  | none => s
  | some i => dBitWith i (s.live (Fin.ofNat 64 i)) s

/-- Some dispatcher step is enabled (42_dispatcher.md R82, R84, R85). -/
def State.dispatcherEnabled (s : State) : Bool := s.entryEnabled || decide (s.dstate = .scanning)

/-- The dispatcher step that is enabled: D_ENTRY, D_BIT or D_EXIT; at most one is (42_dispatcher.md R80, R82, R84, R85). With
none enabled nothing changes (log 10). -/
def dispatcherStep (s : State) : State :=
  match s.dstate with
  | .idle => if s.gs then dEntry s else s
  | .scanning => if s.snap = 0 then dExit s else dBit s

/-- E_COMPLETE(i), a step of the engine (42_dispatcher.md R81). -/
def eComplete (i : Code) (s : State) : State :=
  { s with cv := maskSet s.cv i.val, gs := gsOnComplete s.gs s.ien i.val }

/-- Reset: every element of the block at its value of 70_reset_and_hazards.md R129 in one step. The parameters, `CV`, the rest
of the engine and the host are not the block's and are left (R130; log 21). -/
def resetBlock (s : State) : State :=
  { State.powerOn s.cfg s.cv s.engine with
    engReply := s.engReply, host := s.host, result := s.result, draws := s.draws, agenda := s.agenda }

end Sys2Proof.Machine
end

