-- ==== Sys2Proof/Machine/Engine.lean ====
section
/-! DEFINITION. The engine operations of the host (44_host_lifecycle.md R100), each one atomic step that always completes and
changes only engine state; `CV` is the only engine state that the block sees. -/

namespace Sys2Proof.Machine

/-- The descriptor memory with slot `s` holding `d`: slot numbers stay strictly rising, one entry each. -/
def putDescriptor (slot : Nat) (d : Words8) : List (Nat × Words8) → List (Nat × Words8)
  | [] => [(slot, d)]
  | (k, v) :: rest =>
    if slot < k then (slot, d) :: (k, v) :: rest
    else if slot = k then (slot, d) :: rest
    else (k, v) :: putDescriptor slot d rest

/-- The canonical form of the descriptor memory: slot numbers strictly rising. -/
def descriptorsWf : List (Nat × Words8) → Bool
  | [] => true
  | [_] => true
  | (k, _) :: (k', v') :: rest => decide (k < k') && descriptorsWf ((k', v') :: rest)

/-- The descriptor programmed in a slot, none for a slot never programmed. -/
def getDescriptor (slot : Nat) : List (Nat × Words8) → Option Words8
  | [] => none
  | (k, v) :: rest => if slot = k then some v else getDescriptor slot rest

/-- An operation that returns nothing: the engine's state becomes `e`. -/
def State.setEngine (s : State) (e : Engine) : State := { s with engine := e, engReply := .nothing }

/-- An operation that returns `v` and changes nothing else. -/
def State.engReturn (s : State) (v : EngineReply) : State := { s with engReply := v }

/-- The engine operations (44_host_lifecycle.md R100). What the engine does after a trigger is outside the block (log 16). No
operation and no other move raises an event-pending flag (DESIGN CHOICE, log 31). -/
def engineOp (op : EngineOp) (s : State) : State :=
  match op with
  | .program slot d => s.setEngine { s.engine with descriptors := putDescriptor slot.toNat d s.engine.descriptors }
  | .map c slot => s.setEngine { s.engine with mapping := s.engine.mapping.set c.val (some slot) }
  | .mappedSlot c =>
    match s.engine.mapping[c.val] with
    | some slot => s.engReturn (.slot slot)
    | none => s.drawn.engReturn (.slot (Config.mappedSlotDraw s.draws c))
  | .unmap c => s.setEngine { s.engine with mapping := s.engine.mapping.set c.val none }
  | .clearPending c =>
    { s.setEngine { s.engine with eventPending := maskClear s.engine.eventPending c.val } with cv := maskClear s.cv c.val }
  | .manualTrigger c =>
    s.setEngine { s.engine with manualEnabled := maskSet s.engine.manualEnabled c.val, triggers := s.engine.triggers ++ [c] }
  | .eventEnable c => s.setEngine { s.engine with eventArmed := maskSet s.engine.eventArmed c.val }
  | .eventDisable c => s.setEngine { s.engine with eventArmed := maskClear s.engine.eventArmed c.val }
  | .manualDisable c => s.setEngine { s.engine with manualEnabled := maskClear s.engine.manualEnabled c.val }
  | .readCv c => s.engReturn (.bit (s.cv.getLsbD c.val))
  | .eventPending c => s.drawn.engReturn (.bit (Config.eventPendingDraw s.draws c))
  | .live c => s.drawn.engReturn (.counts (s.live c))

end Sys2Proof.Machine
end

