-- ==== Sys2Proof/Machine/HostProtocol.lean ====
section
/-! DEFINITION. The host protocol (44_host_lifecycle.md R101 to R113): each procedure as the sequence of its steps, written line
for line from the spec's. A line naming a block command or an engine operation is one step (R101); what the host does
between two steps depends only on the replies it has got. -/

namespace Sys2Proof.Machine

/-- A procedure's text: it ends with a result, or it takes one step and goes on with the reply. -/
inductive Prog where
  | done (r : ProcResult)
  | ask (op : HostOp) (k : HostReply → Prog)

/-- What is left of a procedure after the replies got so far. -/
def Prog.resume : List HostReply → Prog → Prog
  | [], p => p
  | _ :: _, .done r => .done r
  | r :: rs, .ask _ k => Prog.resume rs (k r)

/-- The response in a reply; the reply to a command always is one. -/
def HostReply.toResponse (r : HostReply) : Response :=
  match r with
  | .response v => v
  | .engine _ => { status := .ok, res := Words8.zero }

/-- The engine's answer in a reply; the reply to an engine operation always is one. -/
def HostReply.toEngine (r : HostReply) : EngineReply :=
  match r with
  | .response _ => .nothing
  | .engine v => v

/-- The slot number in an engine's answer. -/
def EngineReply.toSlot (v : EngineReply) : Word :=
  match v with
  | .slot s => s
  | .nothing => 0
  | .bit _ => 0
  | .counts _ => 0

/-- The bit in an engine's answer. -/
def EngineReply.toBit (v : EngineReply) : Bool :=
  match v with
  | .bit b => b
  | .nothing => false
  | .slot _ => false
  | .counts _ => false

/-- The live counts in an engine's answer. -/
def EngineReply.toCounts (v : EngineReply) : LiveCounts :=
  match v with
  | .counts l => l
  | .nothing => { aCount := 0, bCount := 0, cCount := 0 }
  | .slot _ => { aCount := 0, bCount := 0, cCount := 0 }
  | .bit _ => { aCount := 0, bCount := 0, cCount := 0 }

/-- `st, r = CMD ...` (44_host_lifecycle.md R101). -/
def cmd (i : Instr) (k : Status → Words8 → Prog) : Prog :=
  .ask (.command i) fun r => k r.toResponse.status r.toResponse.res

/-- A command whose response is not used. -/
def cmdThen (i : Instr) (p : Prog) : Prog := .ask (.command i) fun _ => p

/-- An engine operation whose answer is used. -/
def eng (op : EngineOp) (k : EngineReply → Prog) : Prog := .ask (.engine op) fun r => k r.toEngine

/-- An engine operation that returns nothing. -/
def engThen (op : EngineOp) (p : Prog) : Prog := .ask (.engine op) fun _ => p

/-- A procedure returns a status. -/
def ret (st : Status) : Prog := .done { status := st, report := none }

/-- The channel of a channel number that a command has accepted, so `c < CH_COUNT <= 64`. -/
def channelOf (c : Word) : Code := Fin.ofNat 64 c.toNat

/-- `INIT(list)`: stops at the first failure; earlier claims stay (44_host_lifecycle.md R102). -/
def progInit : List ClaimTriple → Prog
  | [] => ret .ok
  | t :: rest => cmd (.bmClaim t.kind t.first t.last) fun st _ => if st ≠ .ok then ret st else progInit rest

/-- `VALIDATE(c)`: goes on with a status and, if it is OK, the direction (44_host_lifecycle.md R103). -/
def validate (c : Word) (k : Status → Direction → Prog) : Prog :=
  cmd (.slotRead c) fun st r =>
    if st ≠ .ok then k .invalidChannel .idle
    else if !r.w0.getLsbD 8 then k .notAllocated .idle
    else k .ok (Direction.ofBits (r.w0.extractLsb' 0 2))

/-- `START(c)` (44_host_lifecycle.md R110). -/
def progStart (c : Word) : Prog :=
  validate c fun st dir =>
    if st ≠ .ok then ret st
    else
      match dir with
      | .memToMem => engThen (.clearPending (channelOf c)) <| engThen (.manualTrigger (channelOf c)) <| ret .ok
      | .peripheralToMemory => engThen (.clearPending (channelOf c)) <| engThen (.eventEnable (channelOf c)) <| ret .ok
      | .memToPeripheral =>
        engThen (.clearPending (channelOf c)) <| engThen (.eventEnable (channelOf c)) <|
          engThen (.manualTrigger (channelOf c)) <| ret .ok
      | .idle => ret .unsupported

/-- `STOP(c)`, going on with its status (44_host_lifecycle.md R111). -/
def stopThen (c : Word) (k : Status → Prog) : Prog :=
  validate c fun st dir =>
    if st ≠ .ok then k st
    else
      match dir with
      | .memToMem => engThen (.manualDisable (channelOf c)) <| engThen (.clearPending (channelOf c)) <| k .ok
      | .memToPeripheral => engThen (.eventDisable (channelOf c)) <| engThen (.clearPending (channelOf c)) <| k .ok
      | .peripheralToMemory => engThen (.eventDisable (channelOf c)) <| engThen (.clearPending (channelOf c)) <| k .ok
      | .idle => engThen (.clearPending (channelOf c)) <| k .ok

/-- `STOP(c)` -/
def progStop (c : Word) : Prog := stopThen c ret

/-- `busy` of GET_STATUS (44_host_lifecycle.md R112). -/
def busyOf (dir : Direction) (tc pe : Bool) : Bool :=
  match dir with
  | .memToMem => !tc
  | .memToPeripheral => !tc && pe
  | .peripheralToMemory => !tc && pe
  | .idle => false

/-- `GET_STATUS(c)` (44_host_lifecycle.md R112). -/
def progGetStatus (c : Word) : Prog :=
  validate c fun st dir =>
    if st ≠ .ok then ret st
    else
      eng (.readCv (channelOf c)) fun tc =>
        eng (.eventPending (channelOf c)) fun pe =>
          eng (.live (channelOf c)) fun l =>
            .done
              { status := .ok
                report :=
                  some
                    { busy := busyOf dir tc.toBit pe.toBit, direction := dir,
                      pendingLength := l.toCounts.pendingLength } }

/-- `DECONFIGURE(c)`, going on with its status (44_host_lifecycle.md R113). -/
def deconfigureThen (c : Word) (k : Status → Prog) : Prog :=
  stopThen c fun st =>
    if st ≠ .ok then k st
    else
      eng (.mappedSlot (channelOf c)) fun s =>
        engThen (.unmap (channelOf c)) <|
          cmd (.bmRelease .chan c) fun st1 _ =>
            if st1 ≠ .ok then k .cancelled
            else
              cmd (.bmRelease .cc c) fun st2 _ =>
                if st2 ≠ .ok then k .cancelled
                else
                  cmd (.bmRelease .slot s.toSlot) fun st3 _ =>
                    if st3 ≠ .ok then k .cancelled else cmdThen (.slotClear c) <| k .ok

/-- `DECONFIGURE(c)` -/
def progDeconfigure (c : Word) : Prog := deconfigureThen c ret

/-- The SYNTH of CONFIGURE step 3: the completion code is the channel number (44_host_lifecycle.md R106). -/
def configureSynth (c : Word) (q : SynthRequest) : Instr :=
  .synth { q with completionCode := BitVec.ofNat 6 (channelOf c).val }

/-- CONFIGURE steps 4 and 5: program the engine, register the callback, publish the direction (44_host_lifecycle.md R107,
R108). -/
def configurePublish (c slot : Word) (req : ConfigureRequest) (d : Words8) : Prog :=
  engThen (.map (channelOf c) slot) <|
    engThen (.program slot d) <|
      if req.callback then
        cmdThen (.ienClr c) <|
          cmdThen (.slotWrite c (Direction.ofBits (req.fields.direction.setWidth 2)) true true) <|
            cmdThen (.ienSet c) <| ret .ok
      else cmdThen (.slotWrite c (Direction.ofBits (req.fields.direction.setWidth 2)) true false) <| ret .ok

/-- CONFIGURE steps 2 and 3: acquire the triple and synthesize; each failure undoes, in reverse order, what this call has
acquired (44_host_lifecycle.md R105, R106). -/
def configureAcquire (c : Word) (req : ConfigureRequest) : Prog :=
  cmd (.bmAcquire .chan c) fun st1 _ =>
    if st1 ≠ .ok then cmdThen (.slotClear c) <| ret .allocationFailed
    else
      cmd (.bmAcquire .cc c) fun st2 _ =>
        if st2 ≠ .ok then cmdThen (.bmRelease .chan c) <| cmdThen (.slotClear c) <| ret .allocationFailed
        else
          cmd (.bmAcquireAny .slot) fun st3 r =>
            if st3 ≠ .ok then
              cmdThen (.bmRelease .cc c) <| cmdThen (.bmRelease .chan c) <| cmdThen (.slotClear c) <| ret .allocationFailed
            else
              cmd (configureSynth c req.fields) fun st4 d =>
                if st4 ≠ .ok then
                  cmdThen (.bmRelease .slot r.w0) <| cmdThen (.bmRelease .cc c) <| cmdThen (.bmRelease .chan c) <|
                    cmdThen (.slotClear c) <| ret st4
                else configurePublish c r.w0 req d

/-- `CONFIGURE(c, req)`: step 1 takes the channel, deconfiguring it first if it was allocated (44_host_lifecycle.md R104 to
R108). -/
def progConfigure (c : Word) (req : ConfigureRequest) : Prog :=
  cmd (.slotTas c) fun st r =>
    if st ≠ .ok then ret st
    else if r.w0.getLsbD 0 then
      deconfigureThen c fun st1 =>
        if st1 ≠ .ok then ret st1 else cmdThen (.slotTas c) <| configureAcquire c req
    else configureAcquire c req

/-- The text of a procedure. -/
def procProg (p : Procedure) : Prog :=
  match p with
  | .init list => progInit list
  | .configure c req => progConfigure c req
  | .start c => progStart c
  | .stop c => progStop c
  | .getStatus c => progGetStatus c
  | .deconfigure c => progDeconfigure c

end Sys2Proof.Machine
end

