-- ==== Sys2Proof/Machine/Moves.lean ====
section
/-! DEFINITION. The moves of the agents (42_dispatcher.md R88, 60_exceptions.md R128): a command at the port, a step of a host
procedure, a dispatcher step, a completion, a reset; and what the machine does with the environment's agenda of moves. -/

namespace Sys2Proof.Machine

/-- The command port: a command word that names no command is answered with BAD_COMMAND and changes nothing else
(30_encoding.md R43); any other runs its rule as one atomic step (43_system.md R93). -/
def port (r : Request) (s : State) : Result :=
  match decode r with
  | .command i => exec i s
  | .reject _ => fail .badCommand s

/-- One step of a procedure (44_host_lifecycle.md R101): the command goes through the port, as every command does. -/
def perform (op : HostOp) (s : State) : Result :=
  match op with
  | .command i => port (encode i) s
  | .engine e => .next (engineOp e s)

/-- The reply that a step of a procedure leaves. -/
def replyOf (op : HostOp) (t : State) : HostReply :=
  match op with
  | .command _ => .response t.resp
  | .engine _ => .engine t.engReply

/-- The procedure ends with a result, or waits for its next step. -/
def settleHost (run : HostRun) (s : State) : State :=
  match Prog.resume run.replies (procProg run.proc) with
  | .done r => { s with host := none, result := some r }
  | .ask _ _ => { s with host := some run }

/-- The host takes the next step of the procedure it runs; with none running nothing changes. -/
def hostStep (s : State) : Result :=
  match s.host with
  | none => .next s
  | some run =>
    match Prog.resume run.replies (procProg run.proc) with
    | .done _ => .next (settleHost run s)
    | .ask op _ =>
      match perform op s with
      | .next t => .next (settleHost { run with replies := run.replies ++ [replyOf op t] } t)
      | .fault f => .fault f
      | .refused r => .refused r

/-- The host calls a procedure. "The host runs one procedure at a time" (44_host_lifecycle.md R101): while another runs, the
call waits on the agenda and the host takes a step of the one it runs (log 13). -/
def callProcedure (p : Procedure) (s : State) : Result :=
  match s.host with
  | none => .next (settleHost { proc := p, replies := [] } s)
  | some _ => hostStep { s with agenda := .call p :: s.agenda }

/-- One move, taken off the agenda before. -/
def runMove (m : Move) (s : State) : Result :=
  match m with
  | .command r => port r s
  | .engine op => .next (engineOp op s)
  | .call p => callProcedure p s
  | .host => hostStep s
  | .dispatcher => .next (dispatcherStep s)
  | .complete i => .next (eComplete i s)
  | .reset => .next (resetBlock s)

/-- With no move chosen: the dispatcher's enabled step (42_dispatcher.md R88, fairness; 70_reset_and_hazards.md R140), else the
next step of the host's procedure, else nothing (DESIGN CHOICE, log 9). -/
def runQuiet (s : State) : Result := if s.dispatcherEnabled then .next (dispatcherStep s) else hostStep s

/-- The next move of the agenda. -/
def runAgenda (s : State) : Result :=
  match s.agenda with
  | [] => runQuiet s
  | m :: rest => runMove m { s with agenda := rest }

/-- `s` with the command whose bits are `w` as the host's next move (log 11). -/
def pushCommand (s : State) (nbits w : Nat) : State :=
  { s with agenda := .command (tableRequest nbits w) :: s.agenda }

end Sys2Proof.Machine
end

