-- ==== Sys2Proof/Machine/Step.lean ====
section
/-! DEFINITION. One step of the whole system, and how a command is placed to run next. -/

namespace Sys2Proof.Machine

/-- One atomic step of one agent (20_memory.md R29). A parameter set that breaks 00_scope.md R1 "is not a DRB, and a model
refuses it". -/
def step (s : State) : Host.Outcome State Fault Refusal :=
  if s.cfg.Valid then runAgenda s else .refused .badConfiguration

/-- `s` with the command whose bits are `w` as the very next move (log 11): the block fetches nothing, "A command word is
consumed once, when it is issued" (20_memory.md R32). -/
def State.withFetchWord (s : State) (nbits w : Nat) : State := pushCommand s nbits w

end Sys2Proof.Machine
end

