-- ==== Sys2Proof/Safety.lean ====
section
/-! DEFINITION. The terms in which claims are made: the invariant of every run, what a step leaves unchanged, quiescence, a
dispatcher invocation with no other step between its steps, and a host procedure with no other agent's step between its steps. -/

namespace Sys2Proof.Machine

/-! ## The invariant -/

/-- What holds in every state that a run reaches. -/
structure State.Inv (s : State) : Prop where
  /-- The parameters keep the constraints of 00_scope.md R1. -/
  cfg_valid : s.cfg.Valid
  /-- "`BM[b]` has exactly `CAP(b)` bits" (10_state.md R7). -/
  bm_length : ∀ b : Bitmap, (s.bm b).length = s.cfg.cap b
  /-- The slot table is `CHS[0 .. CH_COUNT-1]` (10_state.md R10). -/
  chs_length : s.chs.length = s.cfg.chCount
  /-- "`SNAP` while `DSTATE = Idle`: fixed: 0" (93_implementation_defined.md U17). -/
  snap_idle : s.dstate = .idle → s.snap = 0
  /-- "`GS` stays 1 until `D_EXIT`" (42_dispatcher.md R82). -/
  gs_scanning : s.dstate = .scanning → s.gs = true
  /-- No enabled completion is lost: one that is pending has an invocation requested (10_state.md R14, 42_dispatcher.md R78,
  R81, R85). -/
  gs_enabled : s.cv &&& s.ien ≠ 0 → s.gs = true
  /-- The engine's descriptor memory keeps its canonical form. -/
  descriptors_wf : descriptorsWf s.engine.descriptors = true

/-! ## What a step leaves unchanged -/

/-- The three bitmaps are unchanged. -/
def KeepsBitmaps (s t : State) : Prop := t.bmChan = s.bmChan ∧ t.bmCc = s.bmCc ∧ t.bmSlot = s.bmSlot

/-- The channel slot table is unchanged. -/
def KeepsSlots (s t : State) : Prop := t.chs = s.chs

/-- `IEN`, `GS`, `DSTATE` and `SNAP` are unchanged. -/
def KeepsDispatcher (s t : State) : Prop := t.ien = s.ien ∧ t.gs = s.gs ∧ t.dstate = s.dstate ∧ t.snap = s.snap

/-- `EVT` is unchanged. -/
def KeepsEvents (s t : State) : Prop := t.evt = s.evt

/-- `STATUS` and `RES` are unchanged. -/
def KeepsResponse (s t : State) : Prop := t.resp = s.resp

/-- The parameters and everything outside the block are unchanged: the completion vector, the rest of the engine, the host, the
number of draws and the agenda. -/
def KeepsEnvironment (s t : State) : Prop :=
  t.cfg = s.cfg ∧ t.cv = s.cv ∧ t.engine = s.engine ∧ t.engReply = s.engReply ∧ t.host = s.host ∧ t.result = s.result ∧
    t.draws = s.draws ∧ t.agenda = s.agenda

/-- The parameters and everything outside the block but the engine are unchanged. -/
def KeepsHost (s t : State) : Prop :=
  t.cfg = s.cfg ∧ t.host = s.host ∧ t.result = s.result ∧ t.agenda = s.agenda

/-! ## Command words, ranges, moves -/

/-- The command words that name no command, by the numbers of `OPC`, `SEL` and `RSV` (30_encoding.md R37, R38, R42). -/
def NamesNoCommand (cmd : Word) : Prop :=
  cmd.toNat / 1024 ≠ 0 ∨
  cmd.toNat % 256 ∉ [0x01, 0x02, 0x03, 0x04, 0x05, 0x06, 0x07, 0x10, 0x20, 0x21, 0x22, 0x23, 0x28, 0x29, 0x2A, 0x30, 0x31] ∨
  (cmd.toNat % 256 ∈ [0x03, 0x04, 0x05, 0x06, 0x07] ∧ cmd.toNat / 256 % 4 = 3) ∨
  (cmd.toNat % 256 = 0x2A ∧ 2 ≤ cmd.toNat / 256 % 4) ∨
  (cmd.toNat % 256 ∈ [0x10, 0x20, 0x21, 0x22, 0x23, 0x28, 0x29, 0x30, 0x31] ∧ cmd.toNat / 256 % 4 ≠ 0)

/-- Index `j` is in `[first, last]`, both ends included. -/
abbrev InRange (first last : Word) (j : Nat) : Prop := first.toNat ≤ j ∧ j ≤ last.toNat

/-- `s` with `m` as the next move, before the moves that `s` holds. A step of it takes `m` off and leaves those. -/
def State.push (s : State) (m : Move) : State := { s with agenda := m :: s.agenda }

/-- `n` steps of the whole system; none if one of them stops. -/
def runSteps : Nat → State → Option State
  | 0, s => some s
  | n + 1, s =>
    match step s with
    | .next t => runSteps n t
    | .fault _ => none
    | .refused _ => none

/-! ## The dispatcher alone -/

/-- `n` dispatcher steps with no other agent's step between. -/
def dispatcherSteps : Nat → State → State
  | 0, s => s
  | n + 1, s => dispatcherSteps n (dispatcherStep s)

/-- "dispatcher steps run until `DSTATE` = `Idle` and `GS` = 0" (70_reset_and_hazards.md R140). -/
def Quiescent (s : State) : Prop := s.dstate = .idle ∧ s.gs = false

/-- The codes set in a mask, in ascending order. -/
def setCodes (m : CodeMask) : List Nat := (List.range 64).filter fun i => m.getLsbD i

/-- The completion code that an event of the dispatcher is about (10_state.md R16); none for an event of a command. -/
def Event.code? (e : Event) : Option Nat :=
  match e with
  | .callback ch _ => some ch
  | .unmappedCode i => some i
  | .rangeRejected _ _ _ => none
  | .multiBlockIgnored _ => none

/-! ## A host procedure -/

/-- The block command or engine operation that the host's next step takes; none with no procedure under way. -/
def State.nextHostOp (s : State) : Option HostOp :=
  match s.host with
  | none => none
  | some run =>
    match Prog.resume run.replies (procProg run.proc) with
    | .done _ => none
    | .ask op _ => some op

/-- What STOP of channel `c` does outside the block (44_host_lifecycle.md R111): it clears the channel's `CV` bit and event-pending
flag, disables the trigger mode of its direction (manual for MemToMem, event for the peripheral directions, none for Idle), and
leaves every other channel's, the triggers issued and the descriptors alone. -/
def StopsChannel (s t : State) (c : Nat) : Prop :=
  (∀ j, t.cv.getLsbD j = (s.cv.getLsbD j && decide (j ≠ c))) ∧
  (∀ j, t.engine.eventPending.getLsbD j = (s.engine.eventPending.getLsbD j && decide (j ≠ c))) ∧
  (∀ j, t.engine.manualEnabled.getLsbD j =
    (s.engine.manualEnabled.getLsbD j && !decide ((s.slotAt c).dir = .memToMem ∧ j = c))) ∧
  (∀ j, t.engine.eventArmed.getLsbD j =
    (s.engine.eventArmed.getLsbD j &&
      !decide (((s.slotAt c).dir = .memToPeripheral ∨ (s.slotAt c).dir = .peripheralToMemory) ∧ j = c))) ∧
  t.engine.triggers = s.engine.triggers ∧ t.engine.descriptors = s.engine.descriptors

/-- A line of the static configuration list that its own kind admits: the range ends below the kind's count and is not reversed
(40_allocator.md R49). -/
def ClaimTriple.Good (p : Params) (t : ClaimTriple) : Prop :=
  t.first.toNat ≤ t.last.toNat ∧
  ((t.kind = .channelPool ∧ t.last.toNat < p.chCount) ∨ (t.kind = .descriptorSlotPool ∧ t.last.toNat < p.slotMax))

/-- The statuses that a procedure can return (44_host_lifecycle.md R116). -/
def Procedure.statuses (p : Procedure) : List Status :=
  match p with
  | .init _ => [.ok, .invalidResourceRange]
  | .configure _ _ =>
    [.ok, .invalidChannel, .allocationFailed, .sizeMismatch, .unsupported, .unsupportedDirection, .cancelled]
  | .start _ => [.ok, .invalidChannel, .notAllocated, .unsupported]
  | .stop _ => [.ok, .invalidChannel, .notAllocated]
  | .getStatus _ => [.ok, .invalidChannel, .notAllocated]
  | .deconfigure _ => [.ok, .invalidChannel, .notAllocated, .cancelled]

/-- A procedure run to its end with no other agent's step between its steps: the state it leaves and what it returns; none if a
step stops. -/
def Prog.runAlone : Prog → State → Option (State × ProcResult)
  | .done r, s => some (s, r)
  | .ask op k, s =>
    match perform op s with
    | .next t => Prog.runAlone (k (replyOf op t)) t
    | .fault _ => none
    | .refused _ => none

end Sys2Proof.Machine
end

