-- ==== Sys2Proof/Certificates/Slice0/Obligations.lean ====
section
/-! DEFINITION. The statements for the provers. A bitmap operand is written `Bitmap.sel b`, the select value that names bitmap
`b`; words are compared by `toNat`, so that no width hides a corner. `s.push m` is `s` with `m` as its next move. What a step
leaves unchanged is said by the Keeps predicates of Safety.lean. -/

open Sys2Proof Sys2Proof.Machine

/-! ## Encoding (30_encoding.md) -/

/-- Seven requests of 95_test_vectors.md, from every family, decode to the commands they stand for. -/
def Obligations.KnownRequestsDecode : Prop :=
  decode { cmd := 0x00000201, args := { w0 := 30, w1 := 65 } } = .command (.bmAllocRange .slot 30 65) ∧
  decode { cmd := 0x00000102, args := { w0 := 64, w1 := 99 } } = .command (.bmClaim .descriptorSlotPool 64 99) ∧
  decode { cmd := 0x00000204, args := {} } = .command (.bmAcquireAny .slot) ∧
  decode { cmd := 0x00000010,
           args := { w0 := 0x00000002, w1 := 0x80001000, w2 := 0x4000A000, w3 := 0x00040004, w4 := 0x00100010,
                     w5 := 0x00000040, w6 := 0x00010001 } } =
    .command (.synth
      { direction := 2, sourceAddr := 0x80001000, destAddr := 0x4000A000, sourceElemSize := 4, destElemSize := 4,
        sourceBurst := 16, destBurst := 16, blockSize := 64, completionCode := 1, blockCount := 1 }) ∧
  decode { cmd := 0x00000021, args := { w0 := 7, w1 := 0xFFFFFFFF } } =
    .command (.slotWrite 7 .peripheralToMemory true true) ∧
  decode { cmd := 0x0000012A, args := {} } = .command (.ienRead .hi) ∧
  decode { cmd := 0x00000031, args := {} } = .command .dispRead

/-- Decoding the encoding of a well-formed command gives the command back, with every operand (30_encoding.md R41, R45). -/
def Obligations.DecodeOfEncodeIsIdentity : Prop :=
  ∀ i : Instr, i.wellFormed = true → decode (encode i) = .command i

/-- Where decoding gives a command, the command is well-formed and the command word is that command's own (30_encoding.md R36,
R41): no command word has two meanings and no bit of it is dropped. -/
def Obligations.AcceptedCommandWordIsTheEncoding : Prop :=
  ∀ (r : Request) (i : Instr), decode r = .command i → i.wellFormed = true ∧ (encode i).cmd = r.cmd

/-- "Every other argument word and every bit marked 'ignored' has no effect" (30_encoding.md R39, R45): what the decoder
gives depends only on the words and bits that the command's row names. -/
def Obligations.IgnoredArgumentBitsHaveNoEffect : Prop :=
  ∀ (cmd : Word) (a a' : Words8) (i : Instr), decode { cmd := cmd, args := a } = .command i →
    (i.op ∈ [.bmAcquireAny, .ienRead, .dispRead] → decode { cmd := cmd, args := a' } = .command i) ∧
    (i.op ∈ [.bmAcquire, .bmRelease, .bmTest, .bmReadWord, .slotRead, .slotTas, .slotClear, .ienSet, .ienClr, .cfgRead] →
      a'.w0 = a.w0 → decode { cmd := cmd, args := a' } = .command i) ∧
    (i.op ∈ [.bmAllocRange, .bmClaim] → a'.w0 = a.w0 → a'.w1 = a.w1 → decode { cmd := cmd, args := a' } = .command i) ∧
    (i.op = .slotWrite → a'.w0 = a.w0 → a'.w1.toNat % 4 = a.w1.toNat % 4 →
      a'.w1.toNat / 256 % 4 = a.w1.toNat / 256 % 4 → decode { cmd := cmd, args := a' } = .command i) ∧
    (i.op = .synth → a'.w0.toNat % 256 = a.w0.toNat % 256 → a'.w1 = a.w1 → a'.w2 = a.w2 → a'.w3 = a.w3 → a'.w4 = a.w4 →
      a'.w5 = a.w5 → a'.w6.toNat % 64 = a.w6.toNat % 64 → a'.w6.toNat / 65536 = a.w6.toNat / 65536 →
      decode { cmd := cmd, args := a' } = .command i)

/-- A command word that names no command is answered with BAD_COMMAND whatever its arguments: "It changes no state and emits no
event. It returns every result word as 0" (30_encoding.md R43; the words of R37, R38, R42 are written out in NamesNoCommand). -/
def Obligations.UnnamedCommandWordsAreRefused : Prop :=
  ∀ (s : State) (r : Request), s.cfg.Valid → NamesNoCommand r.cmd →
    step (s.push (.command r)) = .next { s with resp := ⟨.badCommand, Words8.zero⟩ }

/-- Every command word but those names a command (30_encoding.md R36, R41). -/
def Obligations.OtherCommandWordsDecode : Prop :=
  ∀ r : Request, ¬ NamesNoCommand r.cmd → ∃ i : Instr, decode r = .command i

/-- When the next move is a request that decodes to a command, the step is that command's `exec`, at the state with the move
taken off (43_system.md R93, 00_scope.md R4). The list of moves is the model's own (log 8). -/
def Obligations.StepRunsTheDecodedCommand : Prop :=
  ∀ (s : State) (r : Request) (i : Instr), s.cfg.Valid → decode r = .command i → step (s.push (.command r)) = exec i s

/-! ## The allocator (40_allocator.md) -/

/-- 40_allocator.md R55, with the response and the frame of R47 and R58. -/
def Obligations.AllocRangeSetsExactlyTheRange : Prop :=
  ∀ (s : State) (b : Bitmap) (first last : Word), s.Inv → first.toNat ≤ last.toNat → last.toNat < s.cfg.cap b →
    ∃ t, exec (.bmAllocRange b.sel first last) s = .next t ∧
      t.resp = ⟨.ok, Words8.zero⟩ ∧
      (∀ j, t.bit b j = (s.bit b j || decide (InRange first last j))) ∧
      (∀ b', b' ≠ b → t.bm b' = s.bm b') ∧
      KeepsEvents s t ∧ KeepsSlots s t ∧ KeepsDispatcher s t ∧ KeepsEnvironment s t

/-- 40_allocator.md R56, with the status and the one warning of R47: nothing but the response and `EVT` changes. -/
def Obligations.AllocRangeRejectsBadRanges : Prop :=
  ∀ (s : State) (b : BmSel) (first last : Word),
    (b = .none ∨ last.toNat < first.toNat ∨ ∃ m : Bitmap, b = m.sel ∧ s.cfg.cap m ≤ last.toNat) →
    exec (.bmAllocRange b first last) s =
      .next { s with resp := ⟨.rangeRejected, Words8.zero⟩, evt := s.evt ++ [.rangeRejected b first last] }

/-- 40_allocator.md R48: for an accepted range every storage word of the bitmap is exactly the word-level update (a single masked
OR, or a partial first word, full interior words and a partial last word; `rangeWord`). -/
def Obligations.AllocRangeIsTheWordUpdate : Prop :=
  ∀ (s : State) (b : Bitmap) (first last : Word), s.Inv → first.toNat ≤ last.toNat → last.toNat < s.cfg.cap b →
    ∃ t, exec (.bmAllocRange b.sel first last) s = .next t ∧
      ∀ k, k < numWords (s.cfg.cap b) → t.bmWord b k = rangeWord first.toNat last.toNat k (s.bmWord b k)

/-- 40_allocator.md R49, every outcome: no kind; `end` not below the kind's count; a reversed range under each value of
CLAIM_REVERSED; the range taken, for ChannelPool in CHAN and CC, for DescriptorSlotPool in SLOT only. That a warning names its
target by the target's own selector is read from the spec by inference (log 22). -/
def Obligations.ClaimChecksAndTakesTheRange : Prop :=
  ∀ (s : State) (first last : Word), s.Inv →
    (∀ k, (k = .kind2 ∨ k = .kind3 ∨ (k = .channelPool ∧ s.cfg.chCount ≤ last.toNat) ∨
        (k = .descriptorSlotPool ∧ s.cfg.slotMax ≤ last.toNat)) →
      exec (.bmClaim k first last) s = .next { s with resp := ⟨.invalidResourceRange, Words8.zero⟩ }) ∧
    (last.toNat < first.toNat → s.cfg.claimReversed = .invalid → ∀ k,
      exec (.bmClaim k first last) s = .next { s with resp := ⟨.invalidResourceRange, Words8.zero⟩ }) ∧
    (last.toNat < first.toNat → s.cfg.claimReversed = .warnNoop →
      (last.toNat < s.cfg.chCount →
        exec (.bmClaim .channelPool first last) s =
          .next { s with
            resp := ⟨.ok, Words8.zero⟩, evt := s.evt ++ [.rangeRejected .chan first last, .rangeRejected .cc first last] }) ∧
      (last.toNat < s.cfg.slotMax →
        exec (.bmClaim .descriptorSlotPool first last) s =
          .next { s with resp := ⟨.ok, Words8.zero⟩, evt := s.evt ++ [.rangeRejected .slot first last] })) ∧
    (first.toNat ≤ last.toNat → last.toNat < s.cfg.chCount →
      ∃ t, exec (.bmClaim .channelPool first last) s = .next t ∧
        t.resp = ⟨.ok, Words8.zero⟩ ∧
        (∀ j, t.bit .chan j = (s.bit .chan j || decide (InRange first last j))) ∧
        (∀ j, t.bit .cc j = (s.bit .cc j || decide (InRange first last j))) ∧
        t.bmSlot = s.bmSlot ∧ KeepsEvents s t ∧ KeepsSlots s t ∧ KeepsDispatcher s t ∧ KeepsEnvironment s t) ∧
    (first.toNat ≤ last.toNat → last.toNat < s.cfg.slotMax →
      ∃ t, exec (.bmClaim .descriptorSlotPool first last) s = .next t ∧
        t.resp = ⟨.ok, Words8.zero⟩ ∧
        (∀ j, t.bit .slot j = (s.bit .slot j || decide (InRange first last j))) ∧
        t.bmChan = s.bmChan ∧ t.bmCc = s.bmCc ∧
        KeepsEvents s t ∧ KeepsSlots s t ∧ KeepsDispatcher s t ∧ KeepsEnvironment s t)

/-- 40_allocator.md R50, every outcome, with the frame. -/
def Obligations.AcquireTestsAndSets : Prop :=
  ∀ (s : State) (b : Bitmap) (i : Word), s.Inv →
    (s.cfg.cap b ≤ i.toNat →
      exec (.bmAcquire b.sel i) s = .next { s with resp := ⟨.indexRange, Words8.zero⟩ }) ∧
    (i.toNat < s.cfg.cap b → s.bit b i.toNat = true →
      exec (.bmAcquire b.sel i) s = .next { s with resp := ⟨.allocationFailed, Words8.zero⟩ }) ∧
    (i.toNat < s.cfg.cap b → s.bit b i.toNat = false →
      ∃ t, exec (.bmAcquire b.sel i) s = .next t ∧
        t.resp = ⟨.ok, { w0 := i }⟩ ∧
        (∀ j, t.bit b j = (s.bit b j || decide (j = i.toNat))) ∧
        (∀ b', b' ≠ b → t.bm b' = s.bm b') ∧
        KeepsEvents s t ∧ KeepsSlots s t ∧ KeepsDispatcher s t ∧ KeepsEnvironment s t)

/-- 40_allocator.md R51: fails when every bit is set, else takes the lowest free index `i` and returns it; with the frame. -/
def Obligations.AcquireAnyTakesTheLowestFree : Prop :=
  ∀ (s : State) (b : Bitmap), s.Inv →
    ((∀ j, j < s.cfg.cap b → s.bit b j = true) →
      exec (.bmAcquireAny b.sel) s = .next { s with resp := ⟨.allocationFailed, Words8.zero⟩ }) ∧
    (∀ i, i < s.cfg.cap b → s.bit b i = false → (∀ j, j < i → s.bit b j = true) →
      ∃ t, exec (.bmAcquireAny b.sel) s = .next t ∧
        t.resp.status = .ok ∧ t.resp.res.w0.toNat = i ∧ t.resp.res = { w0 := t.resp.res.w0 } ∧
        (∀ j, t.bit b j = (s.bit b j || decide (j = i))) ∧
        (∀ b', b' ≠ b → t.bm b' = s.bm b') ∧
        KeepsEvents s t ∧ KeepsSlots s t ∧ KeepsDispatcher s t ∧ KeepsEnvironment s t)

/-- 40_allocator.md R52, every outcome, with the frame. -/
def Obligations.ReleaseTestsAndClears : Prop :=
  ∀ (s : State) (b : Bitmap) (i : Word), s.Inv →
    (s.cfg.cap b ≤ i.toNat →
      exec (.bmRelease b.sel i) s = .next { s with resp := ⟨.indexRange, Words8.zero⟩ }) ∧
    (i.toNat < s.cfg.cap b → s.bit b i.toNat = false →
      exec (.bmRelease b.sel i) s = .next { s with resp := ⟨.releaseFailed, Words8.zero⟩ }) ∧
    (i.toNat < s.cfg.cap b → s.bit b i.toNat = true →
      ∃ t, exec (.bmRelease b.sel i) s = .next t ∧
        t.resp = ⟨.ok, Words8.zero⟩ ∧
        (∀ j, t.bit b j = (s.bit b j && decide (j ≠ i.toNat))) ∧
        (∀ b', b' ≠ b → t.bm b' = s.bm b') ∧
        KeepsEvents s t ∧ KeepsSlots s t ∧ KeepsDispatcher s t ∧ KeepsEnvironment s t)

/-- 40_allocator.md R54: the bit as a word, and nothing but the response changes. -/
def Obligations.TestReadsOneBit : Prop :=
  ∀ (s : State) (b : Bitmap) (i : Word),
    (s.cfg.cap b ≤ i.toNat → exec (.bmTest b.sel i) s = .next { s with resp := ⟨.indexRange, Words8.zero⟩ }) ∧
    (i.toNat < s.cfg.cap b →
      exec (.bmTest b.sel i) s = .next { s with resp := ⟨.ok, { w0 := if s.bit b i.toNat then 1 else 0 }⟩ })

/-- 40_allocator.md R53: for `k >= NW(b) = ceil(CAP(b) / 32)` INDEX_RANGE, else the word whose bit `j` is `BM[b][32k + j]`,
0 beyond the capacity; nothing but the response changes. -/
def Obligations.ReadWordPacksThirtyTwoBits : Prop :=
  ∀ (s : State) (b : Bitmap) (k : Word), s.Inv →
    (s.cfg.cap b ≤ 32 * k.toNat →
      exec (.bmReadWord b.sel k) s = .next { s with resp := ⟨.indexRange, Words8.zero⟩ }) ∧
    (32 * k.toNat < s.cfg.cap b →
      ∃ w : Word, exec (.bmReadWord b.sel k) s = .next { s with resp := ⟨.ok, { w0 := w }⟩ } ∧
        ∀ j, j < 32 →
          w.getLsbD j = (decide (32 * k.toNat + j < s.cfg.cap b) && s.bit b (32 * k.toNat + j)))

/-- 40_allocator.md R58. -/
def Obligations.AllocatorCommandsTouchNothingElse : Prop :=
  ∀ (s t : State) (i : Instr),
    i.op ∈ [.bmAllocRange, .bmClaim, .bmAcquire, .bmAcquireAny, .bmRelease, .bmTest, .bmReadWord] →
    exec i s = .next t →
    KeepsSlots s t ∧ KeepsDispatcher s t ∧ KeepsEnvironment s t ∧
    (∀ b b' : Bitmap, t.bm b ≠ s.bm b → t.bm b' ≠ s.bm b' → b ≠ b' →
      ∃ first last, i = .bmClaim .channelPool first last ∧ b ≠ .slot ∧ b' ≠ .slot) ∧
    (∀ b : Bitmap, i.op ≠ .bmClaim → t.bm b ≠ s.bm b → i.sel = b.sel.toBits)

/-! ## The synthesizer (41_synthesizer.md) -/

/-- A MemToMem request that passes the checks of 41_synthesizer.md R63 gives the descriptor of R64, R68, R69, R70: the eight
result words as numbers. Nothing but the response and the warning of R62 changes. The link value and the option bits are the
spec's own general knowledge (log 27). -/
def Obligations.SynthMemToMemDescriptor : Prop :=
  ∀ (s : State) (q : SynthRequest), q.direction = 1 → q.sourceElemSize = q.destElemSize → q.sourceElemSize ≠ 0 →
    q.blockSize.toNat % q.sourceElemSize.toNat = 0 → q.blockSize.toNat / q.sourceElemSize.toNat ≤ 65535 →
    ∃ r : Words8,
      exec (.synth q) s =
        .next { s with
          resp := ⟨.ok, r⟩, evt := s.evt ++ (if 1 < q.blockCount.toNat then [.multiBlockIgnored q.blockCount] else []) } ∧
      r.w0 = q.sourceAddr ∧ r.w1 = q.destAddr ∧
      r.w2.toNat = q.sourceElemSize.toNat + 65536 * (q.blockSize.toNat / q.sourceElemSize.toNat) ∧
      r.w3.toNat = 1 + 65536 * (q.blockSize.toNat / q.sourceElemSize.toNat) ∧
      r.w4.toNat = q.sourceElemSize.toNat + 65536 * q.sourceElemSize.toNat ∧
      r.w5.toNat = q.sourceElemSize.toNat + 65536 * q.sourceElemSize.toNat ∧
      r.w6 = 0xFFFF0000 ∧ r.w7.toNat = 0x100004 + 4096 * q.completionCode.toNat

/-- A peripheral request that passes the checks of 41_synthesizer.md R65 and, where `c_count` exceeds 65535, is not refused by
R67, gives the descriptor of R66 to R70: the eight result words as numbers. The link value, the option bits and the truncation
are the spec's own general knowledge (log 27). -/
def Obligations.SynthPeripheralDescriptor : Prop :=
  ∀ (s : State) (q : SynthRequest), (q.direction = 2 ∨ q.direction = 3) → q.sourceElemSize = q.destElemSize →
    q.sourceBurst = q.destBurst → q.sourceElemSize ≠ 0 → q.sourceBurst ≠ 0 →
    q.sourceBurst.toNat % q.sourceElemSize.toNat = 0 → q.blockSize.toNat % q.sourceBurst.toNat = 0 →
    (q.blockSize.toNat / q.sourceBurst.toNat ≤ 65535 ∨ s.cfg.ccountOverflow = .truncate16) →
    ∃ r : Words8,
      exec (.synth q) s =
        .next { s with
          resp := ⟨.ok, r⟩, evt := s.evt ++ (if 1 < q.blockCount.toNat then [.multiBlockIgnored q.blockCount] else []) } ∧
      r.w0 = q.sourceAddr ∧ r.w1 = q.destAddr ∧
      r.w2.toNat = q.sourceElemSize.toNat + 65536 * (q.sourceBurst.toNat / q.sourceElemSize.toNat) ∧
      r.w3.toNat =
        q.blockSize.toNat / q.sourceBurst.toNat % 65536 + 65536 * (q.sourceBurst.toNat / q.sourceElemSize.toNat) ∧
      (q.direction = 2 → r.w4.toNat = q.sourceElemSize.toNat ∧ r.w5.toNat = q.sourceBurst.toNat) ∧
      (q.direction = 3 → r.w4.toNat = 65536 * q.sourceElemSize.toNat ∧ r.w5.toNat = 65536 * q.sourceBurst.toNat) ∧
      r.w6 = 0xFFFF0000 ∧ r.w7.toNat = 0x100004 + 4096 * q.completionCode.toNat

/-- The checks of SYNTH in the order of 41_synthesizer.md R61 (with R63, R65, R67): the status of the first that fails, every
result word 0, nothing but the response and the warning of R62 changed. -/
def Obligations.SynthReportsTheFirstFailure : Prop :=
  ∀ (s : State) (q : SynthRequest) (st : Status),
    let ses := q.sourceElemSize.toNat
    let sb := q.sourceBurst.toNat
    let bs := q.blockSize.toNat
    let periph := q.direction = 2 ∨ q.direction = 3
    let sizesDiffer := q.sourceElemSize ≠ q.destElemSize
    let burstsDiffer := q.sourceBurst ≠ q.destBurst
    (st = .unsupportedDirection ∧ q.direction ≠ 1 ∧ ¬ periph) ∨
    (st = .sizeMismatch ∧ q.direction = 1 ∧ sizesDiffer) ∨
    (st = .sizeMismatch ∧ periph ∧ (sizesDiffer ∨ burstsDiffer)) ∨
    (st = .unsupported ∧ q.direction = 1 ∧ ¬ sizesDiffer ∧ (ses = 0 ∨ bs % ses ≠ 0 ∨ 65535 < bs / ses)) ∨
    (st = .unsupported ∧ periph ∧ ¬ sizesDiffer ∧ ¬ burstsDiffer ∧ (ses = 0 ∨ sb % ses ≠ 0 ∨ sb = 0 ∨ bs % sb ≠ 0)) ∨
    (st = .unsupported ∧ periph ∧ ¬ sizesDiffer ∧ ¬ burstsDiffer ∧ 65535 < bs / sb ∧ s.cfg.ccountOverflow = .reject) →
    exec (.synth q) s =
      .next { s with
        resp := ⟨st, Words8.zero⟩,
        evt := s.evt ++ (if 1 < q.blockCount.toNat then [.multiBlockIgnored q.blockCount] else []) }

/-- 41_synthesizer.md R72, properties 1 and 2: in a SYNTH that returns OK the three counts of the result words multiply to the
block size, unless a peripheral `c_count` was truncated, and `b_count_reload = b_count` always. -/
def Obligations.SynthCountsMultiplyToTheBlockSize : Prop :=
  ∀ (s t : State) (q : SynthRequest), exec (.synth q) s = .next t → t.resp.status = .ok →
    t.resp.res.w3.toNat / 65536 = t.resp.res.w2.toNat / 65536 ∧
    (q.direction = 1 ∨ q.blockSize.toNat / q.sourceBurst.toNat ≤ 65535 →
      (t.resp.res.w2.toNat % 65536) * (t.resp.res.w2.toNat / 65536) * (t.resp.res.w3.toNat % 65536) = q.blockSize.toNat)

/-- 41_synthesizer.md R72, properties 4 and 5, with R62 and R71: SYNTH completes in every state, its response depends only on the
request and on CCOUNT_OVERFLOW, its status not on the addresses, a failure returns zeros, and the one other effect is the warning. -/
def Obligations.SynthIsPureButForTheWarning : Prop :=
  ∀ (s s' : State) (q : SynthRequest), s'.cfg.ccountOverflow = s.cfg.ccountOverflow →
    ∃ r : Response,
      exec (.synth q) s =
        .next { s with
          resp := r, evt := s.evt ++ (if 1 < q.blockCount.toNat then [.multiBlockIgnored q.blockCount] else []) } ∧
      exec (.synth q) s' =
        .next { s' with
          resp := r, evt := s'.evt ++ (if 1 < q.blockCount.toNat then [.multiBlockIgnored q.blockCount] else []) } ∧
      (r.status ≠ .ok → r.res = Words8.zero) ∧
      ∀ (src dst : Word) (t : State), exec (.synth { q with sourceAddr := src, destAddr := dst }) s = .next t →
        t.resp.status = r.status

/-! ## The channel slot table and the enable mask (42_dispatcher.md) -/

/-- 42_dispatcher.md R73: bits 1..0 `DIR`, bit 8 `ALLOC`, bit 9 `CBEN`; nothing but the response changes. -/
def Obligations.SlotReadPacksTheSlot : Prop :=
  ∀ (s : State) (c : Word),
    (s.cfg.chCount ≤ c.toNat → exec (.slotRead c) s = .next { s with resp := ⟨.invalidChannel, Words8.zero⟩ }) ∧
    (c.toNat < s.cfg.chCount →
      ∃ w : Word, exec (.slotRead c) s = .next { s with resp := ⟨.ok, { w0 := w }⟩ } ∧
        w.toNat = (s.slotAt c.toNat).dir.toBits.toNat + 256 * (s.slotAt c.toNat).alloc.toNat +
          512 * (s.slotAt c.toNat).cben.toNat)

/-- 42_dispatcher.md R74: every value of the three fields is stored as given, and no other slot changes. -/
def Obligations.SlotWriteStoresAllThreeFields : Prop :=
  ∀ (s : State) (c : Word) (dir : Direction) (alloc cben : Bool), s.Inv →
    (s.cfg.chCount ≤ c.toNat →
      exec (.slotWrite c dir alloc cben) s = .next { s with resp := ⟨.invalidChannel, Words8.zero⟩ }) ∧
    (c.toNat < s.cfg.chCount →
      ∃ t, exec (.slotWrite c dir alloc cben) s = .next t ∧
        t.resp = ⟨.ok, Words8.zero⟩ ∧
        t.slotAt c.toNat = { dir := dir, alloc := alloc, cben := cben } ∧
        (∀ j, j ≠ c.toNat → t.slotAt j = s.slotAt j) ∧
        KeepsBitmaps s t ∧ KeepsEvents s t ∧ KeepsDispatcher s t ∧ KeepsEnvironment s t)

/-- 42_dispatcher.md R75: the old `ALLOC` is the answer, `ALLOC` becomes 1, `DIR` and `CBEN` and every other slot are unchanged. -/
def Obligations.SlotTasReturnsTheOldFlag : Prop :=
  ∀ (s : State) (c : Word), s.Inv →
    (s.cfg.chCount ≤ c.toNat → exec (.slotTas c) s = .next { s with resp := ⟨.invalidChannel, Words8.zero⟩ }) ∧
    (c.toNat < s.cfg.chCount →
      ∃ t, exec (.slotTas c) s = .next t ∧
        t.resp = ⟨.ok, { w0 := if (s.slotAt c.toNat).alloc then 1 else 0 }⟩ ∧
        (t.slotAt c.toNat).alloc = true ∧ (t.slotAt c.toNat).dir = (s.slotAt c.toNat).dir ∧
        (t.slotAt c.toNat).cben = (s.slotAt c.toNat).cben ∧
        (∀ j, j ≠ c.toNat → t.slotAt j = s.slotAt j) ∧
        KeepsBitmaps s t ∧ KeepsEvents s t ∧ KeepsDispatcher s t ∧ KeepsEnvironment s t)

/-- 42_dispatcher.md R76: the slot gets its reset value; `IEN` and every other slot are unchanged. -/
def Obligations.SlotClearResetsTheSlot : Prop :=
  ∀ (s : State) (c : Word), s.Inv →
    (s.cfg.chCount ≤ c.toNat → exec (.slotClear c) s = .next { s with resp := ⟨.invalidChannel, Words8.zero⟩ }) ∧
    (c.toNat < s.cfg.chCount →
      ∃ t, exec (.slotClear c) s = .next t ∧
        t.resp = ⟨.ok, Words8.zero⟩ ∧
        t.slotAt c.toNat = { dir := .idle, alloc := false, cben := false } ∧
        (∀ j, j ≠ c.toNat → t.slotAt j = s.slotAt j) ∧
        KeepsBitmaps s t ∧ KeepsEvents s t ∧ KeepsDispatcher s t ∧ KeepsEnvironment s t)

/-- 42_dispatcher.md R78: sets `IEN[i]` and no other bit, raises `GS` if `CV[i] = 1`, and changes nothing else. -/
def Obligations.IenSetEnablesAndRaises : Prop :=
  ∀ (s : State) (i : Word),
    (64 ≤ i.toNat → exec (.ienSet i) s = .next { s with resp := ⟨.indexRange, Words8.zero⟩ }) ∧
    (i.toNat < 64 →
      ∃ t, exec (.ienSet i) s = .next t ∧
        t.resp = ⟨.ok, Words8.zero⟩ ∧
        (∀ j, j < 64 → t.ien.getLsbD j = (s.ien.getLsbD j || decide (j = i.toNat))) ∧
        t.gs = (s.gs || s.cv.getLsbD i.toNat) ∧ t.dstate = s.dstate ∧ t.snap = s.snap ∧
        KeepsBitmaps s t ∧ KeepsSlots s t ∧ KeepsEvents s t ∧ KeepsEnvironment s t)

/-- 42_dispatcher.md R77: clears `IEN[i]` and no other bit; "A `GS` already set stays set"; nothing else changes. -/
def Obligations.IenClrDisables : Prop :=
  ∀ (s : State) (i : Word),
    (64 ≤ i.toNat → exec (.ienClr i) s = .next { s with resp := ⟨.indexRange, Words8.zero⟩ }) ∧
    (i.toNat < 64 →
      ∃ t, exec (.ienClr i) s = .next t ∧
        t.resp = ⟨.ok, Words8.zero⟩ ∧
        (∀ j, j < 64 → t.ien.getLsbD j = (s.ien.getLsbD j && decide (j ≠ i.toNat))) ∧
        t.gs = s.gs ∧ t.dstate = s.dstate ∧ t.snap = s.snap ∧
        KeepsBitmaps s t ∧ KeepsSlots s t ∧ KeepsEvents s t ∧ KeepsEnvironment s t)

/-- 42_dispatcher.md R79: the low and the high word of the enable mask; nothing but the response changes. -/
def Obligations.IenReadReturnsOneWord : Prop :=
  ∀ s : State,
    (∃ w : Word, exec (.ienRead .lo) s = .next { s with resp := ⟨.ok, { w0 := w }⟩ } ∧ w.toNat = s.ien.toNat % 2 ^ 32) ∧
    (∃ w : Word, exec (.ienRead .hi) s = .next { s with resp := ⟨.ok, { w0 := w }⟩ } ∧ w.toNat = s.ien.toNat / 2 ^ 32)

/-! ## System commands (43_system.md) -/

/-- 43_system.md R94: the nine selectors and INDEX_RANGE for the others; nothing but the response changes. -/
def Obligations.CfgReadReturnsTheParameter : Prop :=
  ∀ (s : State) (sel : Word), s.cfg.Valid →
    (9 ≤ sel.toNat → exec (.cfgRead sel) s = .next { s with resp := ⟨.indexRange, Words8.zero⟩ }) ∧
    (sel.toNat < 9 →
      ∃ w : Word, exec (.cfgRead sel) s = .next { s with resp := ⟨.ok, { w0 := w }⟩ } ∧
        [s.cfg.chCount, s.cfg.slotMax, s.cfg.capCh, s.cfg.capCc, s.cfg.capSlot, 32, 64, 0xFFFF,
          (if s.cfg.claimReversed = .invalid then 1 else 0) + (if s.cfg.ccountOverflow = .reject then 2 else 0)][sel.toNat]? =
          some w.toNat)

/-- 43_system.md R95: bit 0 `GS`, bit 1 Scanning, then the two words of `SNAP`; nothing but the response changes. -/
def Obligations.DispReadShowsTheDispatcher : Prop :=
  ∀ s : State,
    ∃ w0 w1 w2 : Word,
      exec .dispRead s = .next { s with resp := ⟨.ok, { w0 := w0, w1 := w1, w2 := w2 }⟩ } ∧
      w0.toNat = s.gs.toNat + 2 * (decide (s.dstate = .scanning)).toNat ∧
      w1.toNat = s.snap.toNat % 2 ^ 32 ∧ w2.toNat = s.snap.toNat / 2 ^ 32

/-- The write access of 10_state.md R22 over the whole command set, and R9, R10, R13, R14, R15, R16: which commands may change
which state. `GS` is only ever raised by a command, and `EVT` only appended to. -/
def Obligations.CommandsWriteOnlyWhatTheAccessTableAllows : Prop :=
  ∀ (s t : State) (i : Instr), exec i s = .next t →
    (i.op ∉ [.bmAllocRange, .bmClaim, .bmAcquire, .bmAcquireAny, .bmRelease] → KeepsBitmaps s t) ∧
    (i.op ∉ [.slotWrite, .slotTas, .slotClear] → KeepsSlots s t) ∧
    (i.op ∉ [.ienSet, .ienClr] → t.ien = s.ien) ∧
    (i.op ≠ .ienSet → t.gs = s.gs) ∧ (s.gs = true → t.gs = true) ∧
    t.dstate = s.dstate ∧ t.snap = s.snap ∧
    (i.op ∉ [.bmAllocRange, .bmClaim, .synth] → KeepsEvents s t) ∧ s.evt <+: t.evt ∧
    KeepsEnvironment s t

/-! ## The dispatcher and the engine (42_dispatcher.md) -/

/-- 42_dispatcher.md R82 and 60_exceptions.md R123: taking the interrupt records the snapshot and Scanning, and nothing else. -/
def Obligations.InterruptEntryTakesTheSnapshot : Prop :=
  ∀ s : State, s.cfg.Valid → s.dstate = .idle → s.gs = true →
    step (s.push .dispatcher) = .next { s with snap := s.cv, dstate := .scanning }

/-- 42_dispatcher.md R83, R84, R86: with a snapshot whose lowest set bit is `i`, the dispatcher's step clears `CV[i]` and
`SNAP[i]` only; a code with no channel gives the warning and no live read; a code with a channel gives `Callback(i, st)` exactly
when `CBEN = 1`, `st` by the exact product of the three live counts, which are a free value. Nothing else changes. -/
def Obligations.DispatcherBitAcknowledgesTheLowestCode : Prop :=
  ∀ (s : State) (i : Nat), s.Inv → s.dstate = .scanning → i < 64 → s.snap.getLsbD i = true →
    (∀ j, j < i → s.snap.getLsbD j = false) →
    ∃ t, step (s.push .dispatcher) = .next t ∧
      (∀ j, t.cv.getLsbD j = (s.cv.getLsbD j && decide (j ≠ i))) ∧
      (∀ j, t.snap.getLsbD j = (s.snap.getLsbD j && decide (j ≠ i))) ∧
      t.dstate = .scanning ∧ t.gs = s.gs ∧ t.ien = s.ien ∧
      (s.cfg.chCount ≤ i → t.evt = s.evt ++ [.unmappedCode i] ∧ t.draws = s.draws) ∧
      (i < s.cfg.chCount → t.draws = s.draws + 1 ∧
        ((s.slotAt i).cben = false → t.evt = s.evt) ∧
        ((s.slotAt i).cben = true →
          t.evt = s.evt ++
            [.callback i
              (if (s.live (Fin.ofNat 64 i)).aCount.toNat * (s.live (Fin.ofNat 64 i)).bCount.toNat *
                  (s.live (Fin.ofNat 64 i)).cCount.toNat = 0 then .complete else .block)])) ∧
      KeepsBitmaps s t ∧ KeepsSlots s t ∧ KeepsResponse s t ∧ KeepsHost s t ∧ t.engine = s.engine ∧ t.engReply = s.engReply

/-- 42_dispatcher.md R85 and 60_exceptions.md R124: with the snapshot empty, `GS` becomes 1 exactly when some enabled code is
pending, `DSTATE` becomes Idle, and nothing else changes. -/
def Obligations.InterruptReturnReevaluatesOnce : Prop :=
  ∀ s : State, s.cfg.Valid → s.dstate = .scanning → s.snap = 0 →
    ∃ g : Bool, step (s.push .dispatcher) = .next { s with gs := g, dstate := .idle } ∧
      (g = true ↔ ∃ i, s.cv.getLsbD i = true ∧ s.ien.getLsbD i = true)

/-- 42_dispatcher.md R81, R92: a completion sets `CV[i]` and no other bit, raises `GS` only if `IEN[i] = 1`, and changes nothing
else. -/
def Obligations.CompletionSetsItsBit : Prop :=
  ∀ (s : State) (i : Code), s.cfg.Valid →
    ∃ t, step (s.push (.complete i)) = .next t ∧
      (∀ j, j < 64 → t.cv.getLsbD j = (s.cv.getLsbD j || decide (j = i.val))) ∧
      t.gs = (s.gs || s.ien.getLsbD i.val) ∧ t.ien = s.ien ∧ t.dstate = s.dstate ∧ t.snap = s.snap ∧
      KeepsBitmaps s t ∧ KeepsSlots s t ∧ KeepsEvents s t ∧ KeepsResponse s t ∧ KeepsHost s t ∧ t.engine = s.engine ∧
      t.engReply = s.engReply ∧ t.draws = s.draws

/-- 42_dispatcher.md R91: the dispatcher neither reads nor writes a bitmap, a channel's `DIR` or `ALLOC`, the response or the
engine's own state: with all of these replaced, and `CBEN` alone kept, its step is the same step. -/
def Obligations.DispatcherIgnoresAllocatorAndDirection : Prop :=
  ∀ (s : State) (chan cc slot : List Bool) (chs : List ChannelSlot) (r : Response) (e : Engine),
    chs.map (fun c => c.cben) = s.chs.map (fun c => c.cben) →
    dispatcherStep { s with bmChan := chan, bmCc := cc, bmSlot := slot, chs := chs, resp := r, engine := e } =
      { dispatcherStep s with bmChan := chan, bmCc := cc, bmSlot := slot, chs := chs, resp := r, engine := e }

/-- 10_state.md R15: "`DSTATE` and `SNAP` are written only by the dispatcher steps": every other move but reset leaves them, a step
of a host procedure included. -/
def Obligations.ScanStateMovesOnlyWithTheDispatcher : Prop :=
  ∀ (s t : State) (m : Move), m ≠ .dispatcher → m ≠ .reset → step (s.push m) = .next t →
    t.dstate = s.dstate ∧ t.snap = s.snap

/-- 42_dispatcher.md R80, R88: one invocation is one entry, one D_BIT for each bit of the vector at entry, and one exit, so at most
66 dispatcher steps; it scans in between and is idle at the end. -/
def Obligations.InvocationIsEntryBitsExit : Prop :=
  ∀ s : State, s.dstate = .idle → s.gs = true →
    (setCodes s.cv).length + 2 ≤ 66 ∧
    (∀ k, 1 ≤ k → k ≤ (setCodes s.cv).length + 1 → (dispatcherSteps k s).dstate = .scanning) ∧
    (dispatcherSteps ((setCodes s.cv).length + 2) s).dstate = .idle

/-- 42_dispatcher.md R89: an invocation with no other step between its steps acknowledges every code that was pending at entry,
and its events are, in ascending code order and once each, those of the codes with no channel or with a callback. -/
def Obligations.InvocationHandlesEveryCodeOnceInOrder : Prop :=
  ∀ s : State, s.dstate = .idle → s.gs = true →
    ∃ evs : List Event,
      (dispatcherSteps ((setCodes s.cv).length + 2) s).evt = s.evt ++ evs ∧
      (dispatcherSteps ((setCodes s.cv).length + 2) s).cv = 0 ∧
      evs.map Event.code? =
        ((setCodes s.cv).filter fun i => decide (s.cfg.chCount ≤ i) || (s.slotAt i).cben).map some

/-- 70_reset_and_hazards.md R140: with no further completion and no host step, dispatcher steps reach quiescence after at most two
invocations, so at most 65 + 66 steps. -/
def Obligations.QuiescenceWithinTwoInvocations : Prop :=
  ∀ s : State, s.Inv → ∃ n, n ≤ 131 ∧ Quiescent (dispatcherSteps n s)

/-! ## The whole machine -/

/-- Every step of every agent keeps the invariant: capacities, table length, `SNAP` empty while idle, `GS` set while scanning and
whenever an enabled completion is pending, the descriptor memory's form. -/
def Obligations.StepKeepsTheInvariant : Prop :=
  ∀ s t : State, s.Inv → step s = .next t → t.Inv

/-- The invariant holds after power-on, for every valid parameter set, every draw of the completion vector and every other engine
state in canonical form; State.reset is the one of them with the parameters of 00_scope.md R3 and the draw 0 (logs 1, 4, 14). -/
def Obligations.PowerOnHasTheInvariant : Prop :=
  State.reset.Inv ∧
  ∀ (p : Params) (cv : CodeMask) (e : Engine), p.Valid → descriptorsWf e.descriptors = true → (State.powerOn p cv e).Inv

/-- 70_reset_and_hazards.md R129, R130: reset puts every element of the block at its reset value in one step; parameters and `CV`
are kept ("the `CV` bits not yet acknowledged stay set in the engine"). That the rest of the engine, the host, the draws and the
agenda are kept too is the model's choice (log 21). -/
def Obligations.ResetRestoresTheBlock : Prop :=
  ∀ s : State, s.cfg.Valid →
    ∃ t, step (s.push .reset) = .next t ∧
      (∀ b j, t.bit b j = false) ∧ (∀ b, (t.bm b).length = s.cfg.cap b) ∧
      t.chs.length = s.cfg.chCount ∧ (∀ c, t.slotAt c = { dir := .idle, alloc := false, cben := false }) ∧
      t.ien = 0 ∧ t.gs = false ∧ t.dstate = .idle ∧ t.snap = 0 ∧ t.evt = [] ∧ t.resp = ⟨.ok, Words8.zero⟩ ∧
      KeepsEnvironment s t

/-- 60_exceptions.md R117: "No condition makes the block trap, halt": with parameters that keep R1 every step of every agent answers
a next state. -/
def Obligations.EveryStepCompletes : Prop :=
  ∀ s : State, s.cfg.Valid → ∃ t, step s = .next t

/-- 00_scope.md R1: "A configuration that breaks a constraint is not a DRB, and a model refuses it." -/
def Obligations.BadConfigurationIsRefused : Prop :=
  ∀ s : State, ¬ s.cfg.Valid → step s = .refused .badConfiguration

/-- 10_state.md R14, 60_exceptions.md R121: `GS` "is cleared only by `D_EXIT`" (reset aside), and only when no enabled code is
pending; no command, engine operation, completion or step of a host procedure clears it. -/
def Obligations.GroupStatusIsClearedOnlyAtExit : Prop :=
  ∀ (s t : State) (m : Move), s.gs = true → step (s.push m) = .next t → t.gs = false →
    m = .reset ∨ (m = .dispatcher ∧ s.dstate = .scanning ∧ s.snap = 0 ∧ s.cv &&& s.ien = 0)

/-- 70_reset_and_hazards.md R131: while `IEN = 0`, `GS = 0` and the dispatcher is idle (as after reset), nothing but an IEN_SET
changes that, issued at the port or as the next step of the procedure that the host runs: no invocation starts, whatever
completes and whatever else the host does. -/
def Obligations.NoInvocationBeforeTheFirstEnable : Prop :=
  ∀ (s t : State) (m : Move), s.ien = 0 → s.gs = false → s.dstate = .idle →
    (∀ (r : Request) (i : Word), m = .command r → decode r ≠ .command (.ienSet i)) →
    (m = .host ∨ (∃ p, m = .call p) → ∀ i : Word, s.nextHostOp ≠ some (.command (.ienSet i))) →
    step (s.push m) = .next t → t.ien = 0 ∧ t.gs = false ∧ t.dstate = .idle

/-- 10_state.md R16: "The block only appends to it": every move but reset leaves the events there are. -/
def Obligations.EventsOnlyGrow : Prop :=
  ∀ (s t : State) (m : Move), m ≠ .reset → step (s.push m) = .next t → s.evt <+: t.evt

/-- 00_scope.md R1: "None of them changes at run time." -/
def Obligations.ParametersNeverChange : Prop :=
  ∀ s t : State, step s = .next t → t.cfg = s.cfg

/-! ## The host protocol (44_host_lifecycle.md) -/

/-- A procedure run by the host, one move a step, with no other move between, does what the procedure alone does and returns the
same result (44_host_lifecycle.md R101). How the host holds a procedure under way is the model's own (logs 8, 12). -/
def Obligations.HostStepsFollowTheProcedure : Prop :=
  ∀ (s t : State) (p : Procedure) (r : ProcResult), s.cfg.Valid → s.host = none → s.agenda = [] →
    Prog.runAlone (procProg p) s = some (t, r) →
    ∃ n, runSteps (n + 1) { s with agenda := .call p :: List.replicate n .host } = some { t with result := some r }

/-- 44_host_lifecycle.md R103: START, STOP, GET_STATUS and DECONFIGURE of a channel out of range return INVALID_CHANNEL, of one not
allocated NOT_ALLOCATED; the range test comes first, and no engine operation is issued. -/
def Obligations.UnusableChannelIsRefusedFirst : Prop :=
  ∀ (s : State) (c : Word) (p : Prog), p ∈ [progStart c, progStop c, progGetStatus c, progDeconfigure c] →
    (s.cfg.chCount ≤ c.toNat →
      Prog.runAlone p s =
        some ({ s with resp := ⟨.invalidChannel, Words8.zero⟩ }, { status := .invalidChannel, report := none })) ∧
    (c.toNat < s.cfg.chCount → (s.slotAt c.toNat).alloc = false →
      ∃ t, Prog.runAlone p s = some (t, { status := .notAllocated, report := none }) ∧
        t.resp.status = .ok ∧ t = { s with resp := t.resp })

/-- 44_host_lifecycle.md R110: what START of an allocated channel does for each direction: pending state cleared, then a manual
trigger, event mode armed, or both; UNSUPPORTED with no engine operation for Idle. -/
def Obligations.StartTriggersByDirection : Prop :=
  ∀ (s : State) (c : Word), s.Inv → c.toNat < s.cfg.chCount → (s.slotAt c.toNat).alloc = true →
    ∃ (t : State) (r : ProcResult), Prog.runAlone (progStart c) s = some (t, r) ∧
      KeepsBitmaps s t ∧ KeepsSlots s t ∧ KeepsDispatcher s t ∧ KeepsEvents s t ∧
      ((s.slotAt c.toNat).dir = .idle → r.status = .unsupported ∧ t.engine = s.engine ∧ t.cv = s.cv) ∧
      ((s.slotAt c.toNat).dir ≠ .idle → r.status = .ok ∧
        (∀ j, t.cv.getLsbD j = (s.cv.getLsbD j && decide (j ≠ c.toNat))) ∧
        (∀ j, t.engine.eventPending.getLsbD j = (s.engine.eventPending.getLsbD j && decide (j ≠ c.toNat))) ∧
        t.engine.mapping = s.engine.mapping ∧ t.engine.descriptors = s.engine.descriptors) ∧
      ((s.slotAt c.toNat).dir = .memToMem →
        t.engine.triggers = s.engine.triggers ++ [channelOf c] ∧ t.engine.eventArmed = s.engine.eventArmed) ∧
      ((s.slotAt c.toNat).dir = .peripheralToMemory →
        t.engine.triggers = s.engine.triggers ∧ t.engine.eventArmed.getLsbD c.toNat = true) ∧
      ((s.slotAt c.toNat).dir = .memToPeripheral →
        t.engine.triggers = s.engine.triggers ++ [channelOf c] ∧ t.engine.eventArmed.getLsbD c.toNat = true)

/-- 44_host_lifecycle.md R112: the record that GET_STATUS of an allocated channel returns; the event-pending bit and the live counts
are free values, the two draws after `s`. Nothing but the response, the engine's answer and the number of draws changes. -/
def Obligations.GetStatusReportsByTheFormula : Prop :=
  ∀ (s : State) (c : Word), s.Inv → c.toNat < s.cfg.chCount → (s.slotAt c.toNat).alloc = true →
    ∃ t : State,
      Prog.runAlone (progGetStatus c) s =
        some (t,
          { status := .ok,
            report := some
              { busy :=
                  match (s.slotAt c.toNat).dir with
                  | .memToMem => !s.cv.getLsbD c.toNat
                  | .memToPeripheral => !s.cv.getLsbD c.toNat && Config.eventPendingDraw s.draws (channelOf c)
                  | .peripheralToMemory => !s.cv.getLsbD c.toNat && Config.eventPendingDraw s.draws (channelOf c)
                  | .idle => false
                direction := (s.slotAt c.toNat).dir
                pendingLength :=
                  (Config.liveDraw (s.draws + 1) (channelOf c)).aCount.toNat *
                    (Config.liveDraw (s.draws + 1) (channelOf c)).bCount.toNat *
                    (Config.liveDraw (s.draws + 1) (channelOf c)).cCount.toNat } }) ∧
      t = { s with resp := t.resp, engReply := t.engReply, draws := s.draws + 2 }

/-- 44_host_lifecycle.md R111, R113, for an allocated channel. STOP returns OK: the trigger mode of the channel's direction is
disabled and its pending state cleared (`StopsChannel`), nothing is released and nothing else of the block or of the mapping
changes. DECONFIGURE of a channel mapped to `slot` does the same and unmaps the channel. With its triple held it releases the
three bits and nothing else, clears the slot and returns OK; with one of the three bits free it returns CANCELLED, the releases
after that one are not done and the channel slot stays. `IEN` is unchanged throughout. -/
def Obligations.DeconfigureReleasesTheTriple : Prop :=
  ∀ (s : State) (c : Word), s.Inv → c.toNat < s.cfg.chCount → (s.slotAt c.toNat).alloc = true →
    (∃ t : State, Prog.runAlone (progStop c) s = some (t, { status := .ok, report := none }) ∧
      StopsChannel s t c.toNat ∧ t.engine.mapping = s.engine.mapping ∧
      KeepsBitmaps s t ∧ KeepsSlots s t ∧ KeepsDispatcher s t ∧ KeepsEvents s t ∧ KeepsHost s t ∧ t.draws = s.draws) ∧
    ∀ slot : Word, s.engine.mapping[(channelOf c).val] = some slot →
      (s.bit .chan c.toNat = true → s.bit .cc c.toNat = true → s.bit .slot slot.toNat = true →
        ∃ t : State, Prog.runAlone (progDeconfigure c) s = some (t, { status := .ok, report := none }) ∧
          (∀ j, t.bit .chan j = (s.bit .chan j && decide (j ≠ c.toNat))) ∧
          (∀ j, t.bit .cc j = (s.bit .cc j && decide (j ≠ c.toNat))) ∧
          (∀ j, t.bit .slot j = (s.bit .slot j && decide (j ≠ slot.toNat))) ∧
          t.slotAt c.toNat = { dir := .idle, alloc := false, cben := false } ∧
          (∀ j, j ≠ c.toNat → t.slotAt j = s.slotAt j) ∧
          StopsChannel s t c.toNat ∧ t.engine.mapping = s.engine.mapping.set (channelOf c).val none ∧
          KeepsDispatcher s t ∧ KeepsEvents s t ∧ KeepsHost s t ∧ t.draws = s.draws) ∧
      (s.bit .chan c.toNat = false ∨ s.bit .cc c.toNat = false ∨ s.bit .slot slot.toNat = false →
        ∃ t : State, Prog.runAlone (progDeconfigure c) s = some (t, { status := .cancelled, report := none }) ∧
          (∀ j, t.bit .chan j = (s.bit .chan j && decide (j ≠ c.toNat))) ∧
          (∀ j, t.bit .cc j = (s.bit .cc j && !(s.bit .chan c.toNat && decide (j = c.toNat)))) ∧
          t.bmSlot = s.bmSlot ∧ KeepsSlots s t ∧
          StopsChannel s t c.toNat ∧ t.engine.mapping = s.engine.mapping.set (channelOf c).val none ∧
          KeepsDispatcher s t ∧ KeepsEvents s t ∧ KeepsHost s t ∧ t.draws = s.draws)

/-- 44_host_lifecycle.md R115: what a CONFIGURE that returns OK leaves, run with no other agent's step between. -/
def Obligations.ConfigureOwnsItsTriple : Prop :=
  ∀ (s t : State) (c : Word) (req : ConfigureRequest) (r : ProcResult), s.Inv →
    Prog.runAlone (progConfigure c req) s = some (t, r) → r.status = .ok →
    c.toNat < s.cfg.chCount ∧ t.bit .chan c.toNat = true ∧ t.bit .cc c.toNat = true ∧
    (∃ slot : Word, t.bit .slot slot.toNat = true ∧ t.engine.mapping[(channelOf c).val] = some slot ∧
      (getDescriptor slot.toNat t.engine.descriptors).isSome = true) ∧
    t.slotAt c.toNat = { dir := Direction.ofBits (req.fields.direction.setWidth 2), alloc := true, cben := req.callback } ∧
    (req.callback = true → t.ien.getLsbD c.toNat = true)

/-- 44_host_lifecycle.md R115, R114: a CONFIGURE of a channel that was not allocated and that returns anything but OK leaves every
bitmap and every other channel's slot as they were, and the channel's slot clear. -/
def Obligations.FailedConfigureReleasesEverything : Prop :=
  ∀ (s t : State) (c : Word) (req : ConfigureRequest) (r : ProcResult), s.Inv → c.toNat < s.cfg.chCount →
    (s.slotAt c.toNat).alloc = false →
    Prog.runAlone (progConfigure c req) s = some (t, r) → r.status ≠ .ok →
    (∀ b j, t.bit b j = s.bit b j) ∧ t.slotAt c.toNat = { dir := .idle, alloc := false, cben := false } ∧
    (∀ j, j ≠ c.toNat → t.slotAt j = s.slotAt j) ∧ t.ien = s.ien

/-- 44_host_lifecycle.md R115: "Two `CONFIGURE(c, req)` calls in a row leave the same bitmap occupancy as one": the second returns
OK too, with the same bits set in every bitmap and the same slot mapped. -/
def Obligations.ConfigureTwiceLeavesTheOccupancyOfOnce : Prop :=
  ∀ (s t : State) (c : Word) (req : ConfigureRequest) (r : ProcResult), s.Inv →
    Prog.runAlone (progConfigure c req) s = some (t, r) → r.status = .ok →
    ∃ (u : State) (r' : ProcResult), Prog.runAlone (progConfigure c req) t = some (u, r') ∧ r'.status = .ok ∧
      (∀ b j, u.bit b j = t.bit b j) ∧
      u.engine.mapping[(channelOf c).val] = t.engine.mapping[(channelOf c).val]

/-- 44_host_lifecycle.md R116: the statuses each procedure can return, run with no other agent's step between. -/
def Obligations.ProceduresReturnTheirStatuses : Prop :=
  ∀ (s t : State) (p : Procedure) (r : ProcResult), s.Inv → Prog.runAlone (procProg p) s = some (t, r) →
    r.status ∈ p.statuses

/-- 44_host_lifecycle.md R102: INIT of a list whose every line its kind admits claims exactly the ranges of the list, ChannelPool
lines in CHAN and CC, DescriptorSlotPool lines in SLOT, and returns OK. -/
def Obligations.InitClaimsEveryRange : Prop :=
  ∀ (s : State) (list : List ClaimTriple), s.Inv → (∀ x, x ∈ list → x.Good s.cfg) →
    ∃ t : State, Prog.runAlone (progInit list) s = some (t, { status := .ok, report := none }) ∧
      (∀ j, t.bit .chan j =
        (s.bit .chan j || list.any fun x => decide (x.kind = .channelPool ∧ InRange x.first x.last j))) ∧
      (∀ j, t.bit .cc j =
        (s.bit .cc j || list.any fun x => decide (x.kind = .channelPool ∧ InRange x.first x.last j))) ∧
      (∀ j, t.bit .slot j =
        (s.bit .slot j || list.any fun x => decide (x.kind = .descriptorSlotPool ∧ InRange x.first x.last j))) ∧
      KeepsSlots s t ∧ KeepsDispatcher s t ∧ KeepsEvents s t ∧ KeepsEnvironment s t
end

