-- ==== Sys2Proof/Laws/Decode.lean ====
section
/-! SUPPORT. The fields of an encoded command word and of packed argument words, and the tables of codes both ways. -/

namespace Sys2Proof

/-! ## Command words -/

@[simp] theorem opcField_commandWord (o : BitVec 8) (s : BitVec 2) : opcField (commandWord o s) = o := by
  ext i h
  simp [opcField, commandWord, h]
  omega

@[simp] theorem selField_commandWord (o : BitVec 8) (s : BitVec 2) : selField (commandWord o s) = s := by
  ext i h
  have h1 : 8 + i < 32 := by omega
  simp [selField, commandWord, h, h1]

@[simp] theorem rsvField_commandWord (o : BitVec 8) (s : BitVec 2) : rsvField (commandWord o s) = 0 := by
  ext i h
  have h1 : o.getLsbD (10 + i) = false := BitVec.getLsbD_of_ge _ _ (by omega)
  have h2 : s.getLsbD (10 + i - 8) = false := BitVec.getLsbD_of_ge _ _ (by omega)
  simp [rsvField, commandWord, h1, h2]

/-- A command word with `RSV = 0` is the word of its own opcode and select fields. -/
theorem commandWord_fields (w : Word) (h : rsvField w = 0) : commandWord (opcField w) (selField w) = w := by
  have hr : ∀ i, i < 22 → w.getLsbD (10 + i) = false := by
    intro i hi
    have := congrArg (fun v => v.getLsbD i) h
    simpa [rsvField, hi] using this
  ext i hi
  rcases Nat.lt_or_ge i 8 with h8 | h8
  · simp [commandWord, opcField, hi, h8]
  · rcases Nat.lt_or_ge i 10 with h10 | h10
    · have : i - 8 < 2 := by omega
      simp [commandWord, opcField, selField, h8, this, show ¬ i < 8 by omega, show 8 + (i - 8) = i by omega,
        BitVec.getLsbD_eq_getElem hi]
    · have hz := hr (i - 10) (by omega)
      rw [show 10 + (i - 10) = i by omega, BitVec.getLsbD_eq_getElem hi] at hz
      simp [commandWord, opcField, selField, hz, show ¬ i < 8 by omega, show ¬ i - 8 < 2 by omega]

/-! ## Halves -/

@[simp] theorem loHalf_pack16 (lo hi : Half) : loHalf (pack16 lo hi) = lo := by
  ext i h
  have h1 : i < 32 := by omega
  simp [loHalf, pack16, h, h1]

@[simp] theorem hiHalf_pack16 (lo hi : Half) : hiHalf (pack16 lo hi) = hi := by
  ext i h
  have h2 : 16 + i < 32 := by omega
  simp [hiHalf, pack16, h, h2]

/-- Two fields that do not overlap add up. -/
theorem or_shiftLeft_eq_add (a b n : Nat) (h : a < 2 ^ n) : a ||| (b <<< n) = a + b * 2 ^ n := by
  rw [Nat.or_comm, ← Nat.shiftLeft_add_eq_or_of_lt h, Nat.shiftLeft_eq, Nat.add_comm]

theorem toNat_pack16 (lo hi : Half) : (pack16 lo hi).toNat = lo.toNat + 65536 * hi.toNat := by
  have h1 := lo.isLt
  have h2 := hi.isLt
  have h3 : hi.toNat <<< 16 < 2 ^ 32 := by rw [Nat.shiftLeft_eq]; omega
  simp only [pack16, BitVec.toNat_or, BitVec.toNat_shiftLeft, BitVec.toNat_setWidth]
  rw [Nat.mod_eq_of_lt (show lo.toNat < 2 ^ 32 by omega), Nat.mod_eq_of_lt (show hi.toNat < 2 ^ 32 by omega),
    Nat.mod_eq_of_lt h3, or_shiftLeft_eq_add _ _ _ h1]
  omega

/-! ## Codes -/

@[simp] theorem Op.ofOpc_opc (op : Op) : Op.ofOpc op.opc = some op := by cases op <;> decide

theorem Op.opc_of_ofOpc {c : BitVec 8} {op : Op} (h : Op.ofOpc c = some op) : op.opc = c := by
  simpa using List.find?_some h

@[simp] theorem BmSel.ofBits_toBits (b : BmSel) : BmSel.ofBits b.toBits = b := by cases b <;> decide

@[simp] theorem BmSel.toBits_ofBits (s : BitVec 2) : (BmSel.ofBits s).toBits = s := by revert s; decide

@[simp] theorem ClaimKind.ofBits_toBits (k : ClaimKind) : ClaimKind.ofBits k.toBits = k := by cases k <;> decide

@[simp] theorem ClaimKind.toBits_ofBits (s : BitVec 2) : (ClaimKind.ofBits s).toBits = s := by revert s; decide

@[simp] theorem MaskHalf.ofBits_toBits (h : MaskHalf) : MaskHalf.ofBits h.toBits = h := by cases h <;> decide

@[simp] theorem Direction.ofBits_toBits (d : Direction) : Direction.ofBits d.toBits = d := by cases d <;> decide

@[simp] theorem Direction.toBits_ofBits (d : BitVec 2) : (Direction.ofBits d).toBits = d := by revert d; decide

/-! ## The layout of a channel slot -/

theorem slotFieldsWord_dir (d : Direction) (a c : Bool) : (slotFieldsWord d a c).extractLsb' 0 2 = d.toBits := by
  cases d <;> cases a <;> cases c <;> decide

theorem slotFieldsWord_alloc (d : Direction) (a c : Bool) : (slotFieldsWord d a c).getLsbD 8 = a := by
  cases d <;> cases a <;> cases c <;> decide

theorem slotFieldsWord_cben (d : Direction) (a c : Bool) : (slotFieldsWord d a c).getLsbD 9 = c := by
  cases d <;> cases a <;> cases c <;> decide

theorem toNat_slotFieldsWord (d : Direction) (a c : Bool) :
    (slotFieldsWord d a c).toNat = d.toBits.toNat + 256 * a.toNat + 512 * c.toNat := by
  cases d <;> cases a <;> cases c <;> decide

theorem bitWord_eq (b : Bool) : bitWord b = if b then 1 else 0 := by cases b <;> decide

/-! ## The request of SYNTH -/

theorem synthRequestOf_synthArgs (q : SynthRequest) : synthRequestOf (synthArgs q) = q := by
  obtain ⟨dir, sa, da, ses, des, sb, db, bs, cc, n⟩ := q
  simp only [synthRequestOf, synthArgs, loHalf_pack16, hiHalf_pack16, SynthRequest.mk.injEq, true_and, and_true]
  constructor
  · ext i h
    have h1 : i < 32 := by omega
    simp [h, h1]
  · have h1 : ∀ lo hi : Half, (pack16 lo hi).extractLsb' 0 6 = lo.extractLsb' 0 6 := by
      intro lo hi
      ext i h
      have h1 : i < 32 := by omega
      have h2 : i < 16 := by omega
      simp [pack16, h1, h2]
    rw [h1]
    ext i h
    have h2 : i < 16 := by omega
    simp [h, h2]

end Sys2Proof
end

