-- ==== Sys2Proof/Laws/State.lean ====
section
/-! SUPPORT. One lemma for each field of State under each named update, so that no later proof unfolds an update. -/

namespace Sys2Proof.Machine

/-! ## `State.respond` -/

@[simp] theorem State.respond_cfg (s : State) (st : Status) (r : Words8) : (s.respond st r).cfg = s.cfg := rfl
@[simp] theorem State.respond_bmChan (s : State) (st : Status) (r : Words8) : (s.respond st r).bmChan = s.bmChan := rfl
@[simp] theorem State.respond_bmCc (s : State) (st : Status) (r : Words8) : (s.respond st r).bmCc = s.bmCc := rfl
@[simp] theorem State.respond_bmSlot (s : State) (st : Status) (r : Words8) : (s.respond st r).bmSlot = s.bmSlot := rfl
@[simp] theorem State.respond_chs (s : State) (st : Status) (r : Words8) : (s.respond st r).chs = s.chs := rfl
@[simp] theorem State.respond_ien (s : State) (st : Status) (r : Words8) : (s.respond st r).ien = s.ien := rfl
@[simp] theorem State.respond_gs (s : State) (st : Status) (r : Words8) : (s.respond st r).gs = s.gs := rfl
@[simp] theorem State.respond_dstate (s : State) (st : Status) (r : Words8) : (s.respond st r).dstate = s.dstate := rfl
@[simp] theorem State.respond_snap (s : State) (st : Status) (r : Words8) : (s.respond st r).snap = s.snap := rfl
@[simp] theorem State.respond_evt (s : State) (st : Status) (r : Words8) : (s.respond st r).evt = s.evt := rfl
@[simp] theorem State.respond_resp (s : State) (st : Status) (r : Words8) : (s.respond st r).resp = { status := st, res := r } := rfl
@[simp] theorem State.respond_cv (s : State) (st : Status) (r : Words8) : (s.respond st r).cv = s.cv := rfl
@[simp] theorem State.respond_engine (s : State) (st : Status) (r : Words8) : (s.respond st r).engine = s.engine := rfl
@[simp] theorem State.respond_engReply (s : State) (st : Status) (r : Words8) : (s.respond st r).engReply = s.engReply := rfl
@[simp] theorem State.respond_host (s : State) (st : Status) (r : Words8) : (s.respond st r).host = s.host := rfl
@[simp] theorem State.respond_result (s : State) (st : Status) (r : Words8) : (s.respond st r).result = s.result := rfl
@[simp] theorem State.respond_draws (s : State) (st : Status) (r : Words8) : (s.respond st r).draws = s.draws := rfl
@[simp] theorem State.respond_agenda (s : State) (st : Status) (r : Words8) : (s.respond st r).agenda = s.agenda := rfl

/-! ## `State.emit` -/

@[simp] theorem State.emit_cfg (s : State) (e : Event) : (s.emit e).cfg = s.cfg := rfl
@[simp] theorem State.emit_bmChan (s : State) (e : Event) : (s.emit e).bmChan = s.bmChan := rfl
@[simp] theorem State.emit_bmCc (s : State) (e : Event) : (s.emit e).bmCc = s.bmCc := rfl
@[simp] theorem State.emit_bmSlot (s : State) (e : Event) : (s.emit e).bmSlot = s.bmSlot := rfl
@[simp] theorem State.emit_chs (s : State) (e : Event) : (s.emit e).chs = s.chs := rfl
@[simp] theorem State.emit_ien (s : State) (e : Event) : (s.emit e).ien = s.ien := rfl
@[simp] theorem State.emit_gs (s : State) (e : Event) : (s.emit e).gs = s.gs := rfl
@[simp] theorem State.emit_dstate (s : State) (e : Event) : (s.emit e).dstate = s.dstate := rfl
@[simp] theorem State.emit_snap (s : State) (e : Event) : (s.emit e).snap = s.snap := rfl
@[simp] theorem State.emit_evt (s : State) (e : Event) : (s.emit e).evt = s.evt ++ [e] := rfl
@[simp] theorem State.emit_resp (s : State) (e : Event) : (s.emit e).resp = s.resp := rfl
@[simp] theorem State.emit_cv (s : State) (e : Event) : (s.emit e).cv = s.cv := rfl
@[simp] theorem State.emit_engine (s : State) (e : Event) : (s.emit e).engine = s.engine := rfl
@[simp] theorem State.emit_engReply (s : State) (e : Event) : (s.emit e).engReply = s.engReply := rfl
@[simp] theorem State.emit_host (s : State) (e : Event) : (s.emit e).host = s.host := rfl
@[simp] theorem State.emit_result (s : State) (e : Event) : (s.emit e).result = s.result := rfl
@[simp] theorem State.emit_draws (s : State) (e : Event) : (s.emit e).draws = s.draws := rfl
@[simp] theorem State.emit_agenda (s : State) (e : Event) : (s.emit e).agenda = s.agenda := rfl

/-! ## `State.setSlot` -/

@[simp] theorem State.setSlot_cfg (s : State) (c : Nat) (v : ChannelSlot) : (s.setSlot c v).cfg = s.cfg := rfl
@[simp] theorem State.setSlot_bmChan (s : State) (c : Nat) (v : ChannelSlot) : (s.setSlot c v).bmChan = s.bmChan := rfl
@[simp] theorem State.setSlot_bmCc (s : State) (c : Nat) (v : ChannelSlot) : (s.setSlot c v).bmCc = s.bmCc := rfl
@[simp] theorem State.setSlot_bmSlot (s : State) (c : Nat) (v : ChannelSlot) : (s.setSlot c v).bmSlot = s.bmSlot := rfl
@[simp] theorem State.setSlot_chs (s : State) (c : Nat) (v : ChannelSlot) : (s.setSlot c v).chs = s.chs.set c v := rfl
@[simp] theorem State.setSlot_ien (s : State) (c : Nat) (v : ChannelSlot) : (s.setSlot c v).ien = s.ien := rfl
@[simp] theorem State.setSlot_gs (s : State) (c : Nat) (v : ChannelSlot) : (s.setSlot c v).gs = s.gs := rfl
@[simp] theorem State.setSlot_dstate (s : State) (c : Nat) (v : ChannelSlot) : (s.setSlot c v).dstate = s.dstate := rfl
@[simp] theorem State.setSlot_snap (s : State) (c : Nat) (v : ChannelSlot) : (s.setSlot c v).snap = s.snap := rfl
@[simp] theorem State.setSlot_evt (s : State) (c : Nat) (v : ChannelSlot) : (s.setSlot c v).evt = s.evt := rfl
@[simp] theorem State.setSlot_resp (s : State) (c : Nat) (v : ChannelSlot) : (s.setSlot c v).resp = s.resp := rfl
@[simp] theorem State.setSlot_cv (s : State) (c : Nat) (v : ChannelSlot) : (s.setSlot c v).cv = s.cv := rfl
@[simp] theorem State.setSlot_engine (s : State) (c : Nat) (v : ChannelSlot) : (s.setSlot c v).engine = s.engine := rfl
@[simp] theorem State.setSlot_engReply (s : State) (c : Nat) (v : ChannelSlot) : (s.setSlot c v).engReply = s.engReply := rfl
@[simp] theorem State.setSlot_host (s : State) (c : Nat) (v : ChannelSlot) : (s.setSlot c v).host = s.host := rfl
@[simp] theorem State.setSlot_result (s : State) (c : Nat) (v : ChannelSlot) : (s.setSlot c v).result = s.result := rfl
@[simp] theorem State.setSlot_draws (s : State) (c : Nat) (v : ChannelSlot) : (s.setSlot c v).draws = s.draws := rfl
@[simp] theorem State.setSlot_agenda (s : State) (c : Nat) (v : ChannelSlot) : (s.setSlot c v).agenda = s.agenda := rfl

/-! ## `State.setEngine` -/

@[simp] theorem State.setEngine_cfg (s : State) (e : Engine) : (s.setEngine e).cfg = s.cfg := rfl
@[simp] theorem State.setEngine_bmChan (s : State) (e : Engine) : (s.setEngine e).bmChan = s.bmChan := rfl
@[simp] theorem State.setEngine_bmCc (s : State) (e : Engine) : (s.setEngine e).bmCc = s.bmCc := rfl
@[simp] theorem State.setEngine_bmSlot (s : State) (e : Engine) : (s.setEngine e).bmSlot = s.bmSlot := rfl
@[simp] theorem State.setEngine_chs (s : State) (e : Engine) : (s.setEngine e).chs = s.chs := rfl
@[simp] theorem State.setEngine_ien (s : State) (e : Engine) : (s.setEngine e).ien = s.ien := rfl
@[simp] theorem State.setEngine_gs (s : State) (e : Engine) : (s.setEngine e).gs = s.gs := rfl
@[simp] theorem State.setEngine_dstate (s : State) (e : Engine) : (s.setEngine e).dstate = s.dstate := rfl
@[simp] theorem State.setEngine_snap (s : State) (e : Engine) : (s.setEngine e).snap = s.snap := rfl
@[simp] theorem State.setEngine_evt (s : State) (e : Engine) : (s.setEngine e).evt = s.evt := rfl
@[simp] theorem State.setEngine_resp (s : State) (e : Engine) : (s.setEngine e).resp = s.resp := rfl
@[simp] theorem State.setEngine_cv (s : State) (e : Engine) : (s.setEngine e).cv = s.cv := rfl
@[simp] theorem State.setEngine_engine (s : State) (e : Engine) : (s.setEngine e).engine = e := rfl
@[simp] theorem State.setEngine_engReply (s : State) (e : Engine) : (s.setEngine e).engReply = .nothing := rfl
@[simp] theorem State.setEngine_host (s : State) (e : Engine) : (s.setEngine e).host = s.host := rfl
@[simp] theorem State.setEngine_result (s : State) (e : Engine) : (s.setEngine e).result = s.result := rfl
@[simp] theorem State.setEngine_draws (s : State) (e : Engine) : (s.setEngine e).draws = s.draws := rfl
@[simp] theorem State.setEngine_agenda (s : State) (e : Engine) : (s.setEngine e).agenda = s.agenda := rfl

/-! ## `State.engReturn` -/

@[simp] theorem State.engReturn_cfg (s : State) (v : EngineReply) : (s.engReturn v).cfg = s.cfg := rfl
@[simp] theorem State.engReturn_bmChan (s : State) (v : EngineReply) : (s.engReturn v).bmChan = s.bmChan := rfl
@[simp] theorem State.engReturn_bmCc (s : State) (v : EngineReply) : (s.engReturn v).bmCc = s.bmCc := rfl
@[simp] theorem State.engReturn_bmSlot (s : State) (v : EngineReply) : (s.engReturn v).bmSlot = s.bmSlot := rfl
@[simp] theorem State.engReturn_chs (s : State) (v : EngineReply) : (s.engReturn v).chs = s.chs := rfl
@[simp] theorem State.engReturn_ien (s : State) (v : EngineReply) : (s.engReturn v).ien = s.ien := rfl
@[simp] theorem State.engReturn_gs (s : State) (v : EngineReply) : (s.engReturn v).gs = s.gs := rfl
@[simp] theorem State.engReturn_dstate (s : State) (v : EngineReply) : (s.engReturn v).dstate = s.dstate := rfl
@[simp] theorem State.engReturn_snap (s : State) (v : EngineReply) : (s.engReturn v).snap = s.snap := rfl
@[simp] theorem State.engReturn_evt (s : State) (v : EngineReply) : (s.engReturn v).evt = s.evt := rfl
@[simp] theorem State.engReturn_resp (s : State) (v : EngineReply) : (s.engReturn v).resp = s.resp := rfl
@[simp] theorem State.engReturn_cv (s : State) (v : EngineReply) : (s.engReturn v).cv = s.cv := rfl
@[simp] theorem State.engReturn_engine (s : State) (v : EngineReply) : (s.engReturn v).engine = s.engine := rfl
@[simp] theorem State.engReturn_engReply (s : State) (v : EngineReply) : (s.engReturn v).engReply = v := rfl
@[simp] theorem State.engReturn_host (s : State) (v : EngineReply) : (s.engReturn v).host = s.host := rfl
@[simp] theorem State.engReturn_result (s : State) (v : EngineReply) : (s.engReturn v).result = s.result := rfl
@[simp] theorem State.engReturn_draws (s : State) (v : EngineReply) : (s.engReturn v).draws = s.draws := rfl
@[simp] theorem State.engReturn_agenda (s : State) (v : EngineReply) : (s.engReturn v).agenda = s.agenda := rfl

/-! ## `State.drawn` -/

@[simp] theorem State.drawn_cfg (s : State) : (s.drawn).cfg = s.cfg := rfl
@[simp] theorem State.drawn_bmChan (s : State) : (s.drawn).bmChan = s.bmChan := rfl
@[simp] theorem State.drawn_bmCc (s : State) : (s.drawn).bmCc = s.bmCc := rfl
@[simp] theorem State.drawn_bmSlot (s : State) : (s.drawn).bmSlot = s.bmSlot := rfl
@[simp] theorem State.drawn_chs (s : State) : (s.drawn).chs = s.chs := rfl
@[simp] theorem State.drawn_ien (s : State) : (s.drawn).ien = s.ien := rfl
@[simp] theorem State.drawn_gs (s : State) : (s.drawn).gs = s.gs := rfl
@[simp] theorem State.drawn_dstate (s : State) : (s.drawn).dstate = s.dstate := rfl
@[simp] theorem State.drawn_snap (s : State) : (s.drawn).snap = s.snap := rfl
@[simp] theorem State.drawn_evt (s : State) : (s.drawn).evt = s.evt := rfl
@[simp] theorem State.drawn_resp (s : State) : (s.drawn).resp = s.resp := rfl
@[simp] theorem State.drawn_cv (s : State) : (s.drawn).cv = s.cv := rfl
@[simp] theorem State.drawn_engine (s : State) : (s.drawn).engine = s.engine := rfl
@[simp] theorem State.drawn_engReply (s : State) : (s.drawn).engReply = s.engReply := rfl
@[simp] theorem State.drawn_host (s : State) : (s.drawn).host = s.host := rfl
@[simp] theorem State.drawn_result (s : State) : (s.drawn).result = s.result := rfl
@[simp] theorem State.drawn_draws (s : State) : (s.drawn).draws = s.draws + 1 := rfl
@[simp] theorem State.drawn_agenda (s : State) : (s.drawn).agenda = s.agenda := rfl

/-! ## `State.push` -/

@[simp] theorem State.push_cfg (s : State) (m : Move) : (s.push m).cfg = s.cfg := rfl
@[simp] theorem State.push_bmChan (s : State) (m : Move) : (s.push m).bmChan = s.bmChan := rfl
@[simp] theorem State.push_bmCc (s : State) (m : Move) : (s.push m).bmCc = s.bmCc := rfl
@[simp] theorem State.push_bmSlot (s : State) (m : Move) : (s.push m).bmSlot = s.bmSlot := rfl
@[simp] theorem State.push_chs (s : State) (m : Move) : (s.push m).chs = s.chs := rfl
@[simp] theorem State.push_ien (s : State) (m : Move) : (s.push m).ien = s.ien := rfl
@[simp] theorem State.push_gs (s : State) (m : Move) : (s.push m).gs = s.gs := rfl
@[simp] theorem State.push_dstate (s : State) (m : Move) : (s.push m).dstate = s.dstate := rfl
@[simp] theorem State.push_snap (s : State) (m : Move) : (s.push m).snap = s.snap := rfl
@[simp] theorem State.push_evt (s : State) (m : Move) : (s.push m).evt = s.evt := rfl
@[simp] theorem State.push_resp (s : State) (m : Move) : (s.push m).resp = s.resp := rfl
@[simp] theorem State.push_cv (s : State) (m : Move) : (s.push m).cv = s.cv := rfl
@[simp] theorem State.push_engine (s : State) (m : Move) : (s.push m).engine = s.engine := rfl
@[simp] theorem State.push_engReply (s : State) (m : Move) : (s.push m).engReply = s.engReply := rfl
@[simp] theorem State.push_host (s : State) (m : Move) : (s.push m).host = s.host := rfl
@[simp] theorem State.push_result (s : State) (m : Move) : (s.push m).result = s.result := rfl
@[simp] theorem State.push_draws (s : State) (m : Move) : (s.push m).draws = s.draws := rfl
@[simp] theorem State.push_agenda (s : State) (m : Move) : (s.push m).agenda = m :: s.agenda := rfl

/-! ## `State.setBm` -/

@[simp] theorem State.setBm_cfg (s : State) (b : Bitmap) (l : List Bool) : (s.setBm b l).cfg = s.cfg := by cases b <;> rfl
@[simp] theorem State.setBm_chs (s : State) (b : Bitmap) (l : List Bool) : (s.setBm b l).chs = s.chs := by cases b <;> rfl
@[simp] theorem State.setBm_ien (s : State) (b : Bitmap) (l : List Bool) : (s.setBm b l).ien = s.ien := by cases b <;> rfl
@[simp] theorem State.setBm_gs (s : State) (b : Bitmap) (l : List Bool) : (s.setBm b l).gs = s.gs := by cases b <;> rfl
@[simp] theorem State.setBm_dstate (s : State) (b : Bitmap) (l : List Bool) : (s.setBm b l).dstate = s.dstate := by cases b <;> rfl
@[simp] theorem State.setBm_snap (s : State) (b : Bitmap) (l : List Bool) : (s.setBm b l).snap = s.snap := by cases b <;> rfl
@[simp] theorem State.setBm_evt (s : State) (b : Bitmap) (l : List Bool) : (s.setBm b l).evt = s.evt := by cases b <;> rfl
@[simp] theorem State.setBm_resp (s : State) (b : Bitmap) (l : List Bool) : (s.setBm b l).resp = s.resp := by cases b <;> rfl
@[simp] theorem State.setBm_cv (s : State) (b : Bitmap) (l : List Bool) : (s.setBm b l).cv = s.cv := by cases b <;> rfl
@[simp] theorem State.setBm_engine (s : State) (b : Bitmap) (l : List Bool) : (s.setBm b l).engine = s.engine := by cases b <;> rfl
@[simp] theorem State.setBm_engReply (s : State) (b : Bitmap) (l : List Bool) : (s.setBm b l).engReply = s.engReply := by cases b <;> rfl
@[simp] theorem State.setBm_host (s : State) (b : Bitmap) (l : List Bool) : (s.setBm b l).host = s.host := by cases b <;> rfl
@[simp] theorem State.setBm_result (s : State) (b : Bitmap) (l : List Bool) : (s.setBm b l).result = s.result := by cases b <;> rfl
@[simp] theorem State.setBm_draws (s : State) (b : Bitmap) (l : List Bool) : (s.setBm b l).draws = s.draws := by cases b <;> rfl
@[simp] theorem State.setBm_agenda (s : State) (b : Bitmap) (l : List Bool) : (s.setBm b l).agenda = s.agenda := by cases b <;> rfl

/-! ## `State.setBit` -/

@[simp] theorem State.setBit_cfg (s : State) (b : Bitmap) (i : Nat) (v : Bool) : (s.setBit b i v).cfg = s.cfg := by cases b <;> rfl
@[simp] theorem State.setBit_chs (s : State) (b : Bitmap) (i : Nat) (v : Bool) : (s.setBit b i v).chs = s.chs := by cases b <;> rfl
@[simp] theorem State.setBit_ien (s : State) (b : Bitmap) (i : Nat) (v : Bool) : (s.setBit b i v).ien = s.ien := by cases b <;> rfl
@[simp] theorem State.setBit_gs (s : State) (b : Bitmap) (i : Nat) (v : Bool) : (s.setBit b i v).gs = s.gs := by cases b <;> rfl
@[simp] theorem State.setBit_dstate (s : State) (b : Bitmap) (i : Nat) (v : Bool) : (s.setBit b i v).dstate = s.dstate := by cases b <;> rfl
@[simp] theorem State.setBit_snap (s : State) (b : Bitmap) (i : Nat) (v : Bool) : (s.setBit b i v).snap = s.snap := by cases b <;> rfl
@[simp] theorem State.setBit_evt (s : State) (b : Bitmap) (i : Nat) (v : Bool) : (s.setBit b i v).evt = s.evt := by cases b <;> rfl
@[simp] theorem State.setBit_resp (s : State) (b : Bitmap) (i : Nat) (v : Bool) : (s.setBit b i v).resp = s.resp := by cases b <;> rfl
@[simp] theorem State.setBit_cv (s : State) (b : Bitmap) (i : Nat) (v : Bool) : (s.setBit b i v).cv = s.cv := by cases b <;> rfl
@[simp] theorem State.setBit_engine (s : State) (b : Bitmap) (i : Nat) (v : Bool) : (s.setBit b i v).engine = s.engine := by cases b <;> rfl
@[simp] theorem State.setBit_engReply (s : State) (b : Bitmap) (i : Nat) (v : Bool) : (s.setBit b i v).engReply = s.engReply := by cases b <;> rfl
@[simp] theorem State.setBit_host (s : State) (b : Bitmap) (i : Nat) (v : Bool) : (s.setBit b i v).host = s.host := by cases b <;> rfl
@[simp] theorem State.setBit_result (s : State) (b : Bitmap) (i : Nat) (v : Bool) : (s.setBit b i v).result = s.result := by cases b <;> rfl
@[simp] theorem State.setBit_draws (s : State) (b : Bitmap) (i : Nat) (v : Bool) : (s.setBit b i v).draws = s.draws := by cases b <;> rfl
@[simp] theorem State.setBit_agenda (s : State) (b : Bitmap) (i : Nat) (v : Bool) : (s.setBit b i v).agenda = s.agenda := by cases b <;> rfl

/-! ## `State.setRange` -/

@[simp] theorem State.setRange_cfg (s : State) (b : Bitmap) (first last : Nat) : (s.setRange b first last).cfg = s.cfg := by cases b <;> rfl
@[simp] theorem State.setRange_chs (s : State) (b : Bitmap) (first last : Nat) : (s.setRange b first last).chs = s.chs := by cases b <;> rfl
@[simp] theorem State.setRange_ien (s : State) (b : Bitmap) (first last : Nat) : (s.setRange b first last).ien = s.ien := by cases b <;> rfl
@[simp] theorem State.setRange_gs (s : State) (b : Bitmap) (first last : Nat) : (s.setRange b first last).gs = s.gs := by cases b <;> rfl
@[simp] theorem State.setRange_dstate (s : State) (b : Bitmap) (first last : Nat) : (s.setRange b first last).dstate = s.dstate := by cases b <;> rfl
@[simp] theorem State.setRange_snap (s : State) (b : Bitmap) (first last : Nat) : (s.setRange b first last).snap = s.snap := by cases b <;> rfl
@[simp] theorem State.setRange_evt (s : State) (b : Bitmap) (first last : Nat) : (s.setRange b first last).evt = s.evt := by cases b <;> rfl
@[simp] theorem State.setRange_resp (s : State) (b : Bitmap) (first last : Nat) : (s.setRange b first last).resp = s.resp := by cases b <;> rfl
@[simp] theorem State.setRange_cv (s : State) (b : Bitmap) (first last : Nat) : (s.setRange b first last).cv = s.cv := by cases b <;> rfl
@[simp] theorem State.setRange_engine (s : State) (b : Bitmap) (first last : Nat) : (s.setRange b first last).engine = s.engine := by cases b <;> rfl
@[simp] theorem State.setRange_engReply (s : State) (b : Bitmap) (first last : Nat) : (s.setRange b first last).engReply = s.engReply := by cases b <;> rfl
@[simp] theorem State.setRange_host (s : State) (b : Bitmap) (first last : Nat) : (s.setRange b first last).host = s.host := by cases b <;> rfl
@[simp] theorem State.setRange_result (s : State) (b : Bitmap) (first last : Nat) : (s.setRange b first last).result = s.result := by cases b <;> rfl
@[simp] theorem State.setRange_draws (s : State) (b : Bitmap) (first last : Nat) : (s.setRange b first last).draws = s.draws := by cases b <;> rfl
@[simp] theorem State.setRange_agenda (s : State) (b : Bitmap) (first last : Nat) : (s.setRange b first last).agenda = s.agenda := by cases b <;> rfl

/-! ## `exec` answers through `ok` and `fail` -/

theorem ok_eq (r : Words8) (s : State) : ok r s = .next { s with resp := ⟨.ok, r⟩ } := rfl

theorem fail_eq (st : Status) (s : State) : fail st s = .next { s with resp := ⟨st, Words8.zero⟩ } := rfl

end Sys2Proof.Machine
end

