-- ==== Sys2Proof/Laws/Ops.lean ====
section
/-! SUPPORT. One lemma for each shared operation of Operands.lean, Flags.lean and Ops.lean that says what it does. -/

namespace Sys2Proof.Machine

/-! ## Bitmaps -/

@[simp] theorem bitmap_sel (b : Bitmap) : b.sel.bitmap = some b := by cases b <;> rfl

theorem bitmap_eq_some (x : BmSel) (b : Bitmap) : x.bitmap = some b ↔ x = b.sel := by
  cases x <;> cases b <;> simp [BmSel.bitmap, Bitmap.sel]

theorem bitmap_eq_none (x : BmSel) : x.bitmap = Option.none ↔ x = .none := by
  cases x <;> simp [BmSel.bitmap]

@[simp] theorem bm_setBm (s : State) (b b' : Bitmap) (l : List Bool) :
    (s.setBm b l).bm b' = if b' = b then l else s.bm b' := by
  cases b <;> cases b' <;> rfl

@[simp] theorem bm_setBit (s : State) (b b' : Bitmap) (i : Nat) (v : Bool) :
    (s.setBit b i v).bm b' = if b' = b then (s.bm b).set i v else s.bm b' := bm_setBm s b b' _

@[simp] theorem bm_setRange (s : State) (b b' : Bitmap) (first last : Nat) :
    (s.setRange b first last).bm b' = if b' = b then setRangeFrom first last 0 (s.bm b) else s.bm b' := bm_setBm s b b' _

@[simp] theorem bm_respond (s : State) (b : Bitmap) (st : Status) (r : Words8) : (s.respond st r).bm b = s.bm b := by
  cases b <;> rfl

@[simp] theorem bm_emit (s : State) (b : Bitmap) (e : Event) : (s.emit e).bm b = s.bm b := by cases b <;> rfl

@[simp] theorem bm_setSlot (s : State) (b : Bitmap) (c : Nat) (v : ChannelSlot) : (s.setSlot c v).bm b = s.bm b := by
  cases b <;> rfl

@[simp] theorem length_setRangeFrom (first last at0 : Nat) (l : List Bool) :
    (setRangeFrom first last at0 l).length = l.length := by
  induction l generalizing at0 with
  | nil => rfl
  | cons b bs ih => simp [setRangeFrom, ih]

theorem getElem?_setRangeFrom (first last at0 i : Nat) (l : List Bool) :
    (setRangeFrom first last at0 l)[i]? = l[i]?.map fun b => b || decide (first ≤ at0 + i ∧ at0 + i ≤ last) := by
  induction l generalizing at0 i with
  | nil => simp [setRangeFrom]
  | cons b bs ih =>
    cases i with
    | zero => simp [setRangeFrom]
    | succ i =>
      simp only [setRangeFrom, List.getElem?_cons_succ, ih]
      rw [show at0 + 1 + i = at0 + (i + 1) by omega]

/-- A bit is read from its own bitmap only. -/
theorem bit_congr {s t : State} {b : Bitmap} (h : t.bm b = s.bm b) (i : Nat) : t.bit b i = s.bit b i := by
  simp [State.bit, h]

theorem bit_eq_false_of_length_le {s : State} {b : Bitmap} {i : Nat} (h : (s.bm b).length ≤ i) : s.bit b i = false := by
  simp [State.bit, h]

@[simp] theorem bit_respond (s : State) (b : Bitmap) (i : Nat) (st : Status) (r : Words8) :
    (s.respond st r).bit b i = s.bit b i := by simp [State.bit]

@[simp] theorem bit_emit (s : State) (b : Bitmap) (i : Nat) (e : Event) : (s.emit e).bit b i = s.bit b i := by
  simp [State.bit]

@[simp] theorem bit_setSlot (s : State) (b : Bitmap) (i c : Nat) (v : ChannelSlot) :
    (s.setSlot c v).bit b i = s.bit b i := by simp [State.bit]

/-- `BM[b][i] <- v` changes that bit alone. -/
theorem bit_setBit (s : State) (b b' : Bitmap) (i j : Nat) (v : Bool) (h : i < (s.bm b).length) :
    (s.setBit b i v).bit b' j = if b' = b ∧ j = i then v else s.bit b' j := by
  by_cases hb : b' = b
  · subst hb
    by_cases hj : j = i
    · subst hj; simp [State.bit, h]
    · simp [State.bit, hj, Ne.symm hj]
  · simp [State.bit, hb]

/-- A range sets exactly its own bits (40_allocator.md R47). -/
theorem bit_setRange (s : State) (b b' : Bitmap) (first last j : Nat) (h : last < (s.bm b).length) :
    (s.setRange b first last).bit b' j =
      if b' = b then (s.bit b j || decide (first ≤ j ∧ j ≤ last)) else s.bit b' j := by
  by_cases hb : b' = b
  · subst hb
    simp only [State.bit, bm_setRange, if_true, List.getD_eq_getElem?_getD, getElem?_setRangeFrom, Nat.zero_add]
    by_cases hj : j < (s.bm b').length
    · simp [hj]
    · have : ¬ j ≤ last := by omega
      simp [hj, this]
  · simp [State.bit, hb]

theorem lowestFree_eq_some (l : List Bool) (i : Nat) :
    lowestFree l = some i ↔ i < l.length ∧ l.getD i false = false ∧ ∀ j, j < i → l.getD j false = true := by
  unfold lowestFree
  rw [List.findIdx?_eq_some_iff_getElem]
  constructor
  · rintro ⟨h, h1, h2⟩
    refine ⟨h, by simpa [h] using h1, fun j hj => ?_⟩
    have := h2 j hj
    simpa [show j < l.length by omega] using this
  · rintro ⟨h, h1, h2⟩
    refine ⟨h, by simpa [h] using h1, fun j hj => ?_⟩
    have := h2 j hj
    simpa [show j < l.length by omega] using this

theorem lowestFree_eq_none (l : List Bool) : lowestFree l = none ↔ ∀ j, j < l.length → l.getD j false = true := by
  unfold lowestFree
  rw [List.findIdx?_eq_none_iff]
  constructor
  · intro h j hj
    have := h l[j] (List.getElem_mem hj)
    simpa [hj] using this
  · intro h x hx
    obtain ⟨j, hj, rfl⟩ := List.getElem_of_mem hx
    simpa [hj] using h j hj

/-- Bit `j` of storage word `k` (10_state.md R8). -/
theorem getLsbD_bmWord (s : State) (b : Bitmap) (k j : Nat) :
    (s.bmWord b k).getLsbD j = (decide (j < 32) && s.bit b (32 * k + j)) := by
  unfold State.bmWord
  rw [BitVec.getLsbD_ofFnLE]
  by_cases h : j < 32 <;> simp [h]

/-- Bit `j` of `HEAD` (40_allocator.md R48). -/
theorem getLsbD_headMask (lo j : Nat) (hj : j < 32) : (headMask lo).getLsbD j = decide (lo ≤ j) := by
  unfold headMask
  rw [show 0xFFFFFFFF#32 = BitVec.allOnes 32 from rfl, BitVec.getLsbD_shiftLeft, BitVec.getLsbD_allOnes]
  by_cases h : lo ≤ j
  · have : j - lo < 32 := by omega
    simp only [hj, h, this, Nat.not_lt.2 h, decide_true, decide_false, Bool.not_false, Bool.and_self]
  · have : j < lo := by omega
    simp only [h, this, decide_true, decide_false, Bool.not_true, Bool.and_false, Bool.false_and]

/-- Bit `j` of `TAIL` (40_allocator.md R48). -/
theorem getLsbD_tailMask (hi j : Nat) (hh : hi < 32) : (tailMask hi).getLsbD j = decide (j ≤ hi) := by
  unfold tailMask
  rw [show 0xFFFFFFFF#32 = BitVec.allOnes 32 from rfl, BitVec.getLsbD_ushiftRight, BitVec.getLsbD_allOnes]
  congr 1
  apply propext
  omega

/-! ## The channel slot table -/

@[simp] theorem slotAt_respond (s : State) (c : Nat) (st : Status) (r : Words8) : (s.respond st r).slotAt c = s.slotAt c := rfl

@[simp] theorem slotAt_emit (s : State) (c : Nat) (e : Event) : (s.emit e).slotAt c = s.slotAt c := rfl

@[simp] theorem slotAt_setBit (s : State) (c : Nat) (b : Bitmap) (i : Nat) (v : Bool) :
    (s.setBit b i v).slotAt c = s.slotAt c := by cases b <;> rfl

theorem slotAt_setSlot (s : State) (c j : Nat) (v : ChannelSlot) (h : c < s.chs.length) :
    (s.setSlot c v).slotAt j = if j = c then v else s.slotAt j := by
  by_cases hj : j = c
  · subst hj; simp [State.slotAt, h]
  · simp [State.slotAt, hj, Ne.symm hj]

theorem slotAt_congr {s t : State} (h : t.chs = s.chs) (c : Nat) : t.slotAt c = s.slotAt c := by
  simp [State.slotAt, h]

/-! ## Masks -/

theorem getLsbD_codeBit (i j : Nat) (hj : j < 64) : (codeBit i).getLsbD j = decide (j = i) := by
  unfold codeBit
  simp only [BitVec.getLsbD_shiftLeft, hj, decide_true, Bool.true_and, BitVec.getLsbD_one]
  by_cases h : j = i
  · subst h; simp
  · simp [h]; omega

theorem getLsbD_maskSet (m : CodeMask) (i j : Nat) (hj : j < 64) :
    (maskSet m i).getLsbD j = (m.getLsbD j || decide (j = i)) := by
  simp [maskSet, getLsbD_codeBit i j hj]

theorem getLsbD_maskClear (m : CodeMask) (i j : Nat) :
    (maskClear m i).getLsbD j = (m.getLsbD j && decide (j ≠ i)) := by
  by_cases hj : j < 64
  · simp only [maskClear, BitVec.getLsbD_and, BitVec.getLsbD_not, hj, decide_true, Bool.true_and, getLsbD_codeBit i j hj]
    by_cases h : j = i <;> simp [h]
  · have : m.getLsbD j = false := BitVec.getLsbD_of_ge m j (by omega)
    simp [maskClear, this]

theorem lowestSet_eq_some (m : CodeMask) (i : Nat) :
    lowestSet m = some i ↔ i < 64 ∧ m.getLsbD i = true ∧ ∀ j, j < i → m.getLsbD j = false := by
  unfold lowestSet
  rw [List.find?_range_eq_some]
  simp only [List.mem_range, Bool.not_eq_eq_eq_not, Bool.not_true]
  tauto

theorem lowestSet_eq_none (m : CodeMask) : lowestSet m = none ↔ m = 0 := by
  unfold lowestSet
  rw [List.find?_range_eq_none]
  constructor
  · intro h
    ext i hi
    have := h i hi
    rw [BitVec.getLsbD_eq_getElem hi] at this
    simpa using this
  · rintro rfl i _
    simp

end Sys2Proof.Machine
end

