-- ==== Sys2Proof/Laws/Machine.lean ====
section
/-! SUPPORT. One lemma for each operation of Allocator.lean, Synthesizer.lean, Engine.lean and Moves.lean that several commands or
moves share: what it does, or all that it can leave changed. -/

namespace Sys2Proof.Machine

/-! ## Result words -/

theorem toNat_loWord (m : CodeMask) : (loWord m).toNat = m.toNat % 2 ^ 32 := by simp [loWord]

theorem toNat_hiWord (m : CodeMask) : (hiWord m).toNat = m.toNat / 2 ^ 32 := by
  have := m.isLt
  simp only [hiWord, BitVec.extractLsb'_toNat, Nat.shiftRight_eq_div_pow]
  omega

theorem toNat_slotWord (c : ChannelSlot) : c.word.toNat = c.dir.toBits.toNat + 256 * c.alloc.toNat + 512 * c.cben.toNat :=
  toNat_slotFieldsWord _ _ _

theorem toNat_optionsWord (cc : BitVec 6) : (optionsWord cc).toNat = 0x100004 + 4096 * cc.toNat := by
  revert cc; decide +kernel

/-! ## The re-evaluation at D_EXIT -/

theorem and_ne_zero_iff (a b : CodeMask) : a &&& b ≠ 0 ↔ ∃ i, a.getLsbD i = true ∧ b.getLsbD i = true := by
  constructor
  · intro h
    by_contra hn
    push Not at hn
    refine h (BitVec.eq_of_getLsbD_eq fun i _ => ?_)
    have := hn i
    simp only [BitVec.getLsbD_and, BitVec.ofNat_eq_ofNat, BitVec.getLsbD_zero]
    cases h1 : a.getLsbD i <;> simp_all
  · rintro ⟨i, h1, h2⟩ h
    simpa [h1, h2] using congrArg (fun v => v.getLsbD i) h

/-! ## Claims and warnings -/

/-- Setting the range in every target changes bitmaps only (40_allocator.md R49). -/
theorem setTargets_keeps (ts : List Bitmap) (first last : Nat) (s : State) :
    KeepsSlots s (setTargets ts first last s) ∧ KeepsDispatcher s (setTargets ts first last s) ∧
      KeepsEvents s (setTargets ts first last s) ∧ KeepsEnvironment s (setTargets ts first last s) := by
  induction ts generalizing s with
  | nil => exact ⟨rfl, ⟨rfl, rfl, rfl, rfl⟩, rfl, rfl, rfl, rfl, rfl, rfl, rfl, rfl, rfl⟩
  | cons t ts ih =>
    have := ih (s.setRange t first last)
    simpa [setTargets, KeepsSlots, KeepsDispatcher, KeepsEvents, KeepsEnvironment] using this

/-- Warning for every target changes the events only (40_allocator.md R49). -/
theorem warnTargets_eq (ts : List Bitmap) (first last : Word) (s : State) :
    warnTargets ts first last s = { s with evt := s.evt ++ ts.map fun t => .rangeRejected (Bitmap.sel t) first last } := by
  induction ts generalizing s with
  | nil => simp [warnTargets]
  | cons t ts ih =>
    have := ih (s.emit (.rangeRejected t.sel first last))
    simpa [warnTargets, State.emit] using this

/-- The end of a SYNTH: the response, and one warning for more than one block (41_synthesizer.md R62). -/
theorem respond_warnBlocks (n : Half) (s : State) (st : Status) (r : Words8) :
    (warnBlocks n s).respond st r =
      { s with resp := ⟨st, r⟩, evt := s.evt ++ (if 1 < n.toNat then [.multiBlockIgnored n] else []) } := by
  unfold warnBlocks
  split
  · rename_i h; simp [State.emit, State.respond]
  · simp [State.respond]

/-! ## Engine operations -/

/-- An engine operation leaves the block and the host alone (44_host_lifecycle.md R100). -/
theorem engineOp_keeps (op : EngineOp) (s : State) :
    KeepsBitmaps s (engineOp op s) ∧ KeepsSlots s (engineOp op s) ∧ KeepsDispatcher s (engineOp op s) ∧
      KeepsEvents s (engineOp op s) ∧ KeepsResponse s (engineOp op s) ∧ KeepsHost s (engineOp op s) := by
  cases op <;> simp only [engineOp] <;> (try split) <;>
    simp [KeepsBitmaps, KeepsSlots, KeepsDispatcher, KeepsEvents, KeepsResponse, KeepsHost, State.drawn]

theorem getDescriptor_putDescriptor (slot : Nat) (d : Words8) (l : List (Nat × Words8)) :
    getDescriptor slot (putDescriptor slot d l) = some d := by
  induction l with
  | nil => simp [putDescriptor, getDescriptor]
  | cons x l ih =>
    obtain ⟨k, v⟩ := x
    unfold putDescriptor
    split
    · simp [getDescriptor]
    · split
      · simp [getDescriptor]
      · rename_i h; simp only [getDescriptor, h, if_false]; exact ih

theorem getDescriptor_putDescriptor_ne {slot slot' : Nat} (h : slot' ≠ slot) (d : Words8) (l : List (Nat × Words8)) :
    getDescriptor slot' (putDescriptor slot d l) = getDescriptor slot' l := by
  induction l with
  | nil => simp [putDescriptor, getDescriptor, h]
  | cons x l ih =>
    obtain ⟨k, v⟩ := x
    unfold putDescriptor
    split
    · simp [getDescriptor, h]
    · split
      · rename_i hk; subst hk; simp [getDescriptor, h]
      · simp only [getDescriptor, ih]

/-- A write keeps the canonical form behind a lower slot number. -/
theorem descriptorsWf_cons_putDescriptor (slot : Nat) (d : Words8) (l : List (Nat × Words8)) (k : Nat) (v : Words8)
    (h : descriptorsWf ((k, v) :: l) = true) (hk : k < slot) : descriptorsWf ((k, v) :: putDescriptor slot d l) = true := by
  induction l generalizing k v with
  | nil => simp [putDescriptor, descriptorsWf, hk]
  | cons x l ih =>
    obtain ⟨k', v'⟩ := x
    simp only [descriptorsWf, Bool.and_eq_true, decide_eq_true_eq] at h
    unfold putDescriptor
    split
    · simp only [descriptorsWf, Bool.and_eq_true, decide_eq_true_eq]
      exact ⟨hk, by assumption, h.2⟩
    · split
      · rename_i h4
        subst h4
        cases l with
        | nil => simp [descriptorsWf, hk]
        | cons y l =>
          simp only [descriptorsWf, Bool.and_eq_true, decide_eq_true_eq] at h ⊢
          exact ⟨hk, h.2⟩
      · simp only [descriptorsWf, Bool.and_eq_true, decide_eq_true_eq]
        exact ⟨h.1, ih k' v' h.2 (by omega)⟩

/-- `ENG_PROGRAM` keeps the canonical form of the descriptor memory. -/
theorem descriptorsWf_putDescriptor (slot : Nat) (d : Words8) (l : List (Nat × Words8)) (h : descriptorsWf l = true) :
    descriptorsWf (putDescriptor slot d l) = true := by
  cases l with
  | nil => rfl
  | cons x l =>
    obtain ⟨k, v⟩ := x
    unfold putDescriptor
    split
    · simp only [descriptorsWf, Bool.and_eq_true, decide_eq_true_eq]
      exact ⟨by assumption, h⟩
    · split
      · rename_i h4
        subst h4
        cases l with
        | nil => rfl
        | cons y l => simpa [descriptorsWf] using h
      · exact descriptorsWf_cons_putDescriptor slot d l k v h (by omega)

/-! ## Moves -/

/-- A pushed move is what the step takes. -/
theorem step_push (s : State) (m : Move) (h : s.cfg.Valid) : step (s.push m) = runMove m s := if_pos h

/-- The port runs the decoded command, or answers BAD_COMMAND and changes nothing else. -/
theorem port_cases (r : Request) (s : State) :
    (∃ i, decode r = .command i ∧ port r s = exec i s) ∨
      ((∃ w, decode r = .reject w) ∧ port r s = .next (s.respond .badCommand Words8.zero)) := by
  unfold port
  cases h : decode r with
  | command i => exact .inl ⟨i, rfl, rfl⟩
  | reject w => exact .inr ⟨⟨w, rfl⟩, rfl⟩

/-- At the end of a procedure's step only the host's own fields change. -/
theorem settleHost_eq (run : HostRun) (s : State) : ∃ h r, settleHost run s = { s with host := h, result := r } := by
  unfold settleHost
  split
  · exact ⟨_, _, rfl⟩
  · exact ⟨_, s.result, rfl⟩

/-- A host's step: with no step of a procedure to take only the host's own fields change, else the step `nextHostOp` names is
performed and only the host's own fields change beside. -/
theorem hostStep_cases (s : State) :
    (s.nextHostOp = none ∧ ∃ h r, hostStep s = .next { s with host := h, result := r }) ∨
      ∃ op, s.nextHostOp = some op ∧
        ∀ t, perform op s = .next t → ∃ h r, hostStep s = .next { t with host := h, result := r } := by
  unfold State.nextHostOp hostStep
  cases s.host with
  | none => exact .inl ⟨rfl, s.host, s.result, rfl⟩
  | some run =>
    simp only
    cases Prog.resume run.replies (procProg run.proc) with
    | done _ =>
      obtain ⟨h, r, e⟩ := settleHost_eq run s
      exact .inl ⟨rfl, h, r, congrArg _ e⟩
    | ask op _ =>
      refine .inr ⟨op, rfl, fun t ht => ?_⟩
      obtain ⟨h, r, e⟩ := settleHost_eq { run with replies := run.replies ++ [replyOf op t] } t
      exact ⟨h, r, by simp only [ht, e]⟩

end Sys2Proof.Machine
end

