-- ==== Sys2Proof/Tests/Slice0.lean ====
section
/-! SUPPORT. The model's own tests: ill-formed terms, words written out from 30_encoding.md, one step at a time against the values of
95_test_vectors.md (the row is named in each docstring), and for every statement that has hypotheses a witness that meets them. -/

namespace Sys2Proof.Tests

-- One theorem at a time: many kernel evaluations at once would exhaust the memory.
set_option Elab.async false

open Sys2Proof Sys2Proof.Machine

/-! ## Helpers -/

/-- A request with up to two argument words; "Words left out are 0". -/
def req (cmd : Word) (a0 a1 : Word := 0) : Request := { cmd := cmd, args := { w0 := a0, w1 := a1 } }

/-- A SYNTH request: `ARG[0..6]`. -/
def synthReq (a0 a1 a2 a3 a4 a5 a6 : Word) : Request :=
  { cmd := 0x00000010, args := { w0 := a0, w1 := a1, w2 := a2, w3 := a3, w4 := a4, w5 := a5, w6 := a6 } }

/-- The next state that a step answers. -/
def nextState (r : Result) : Option State :=
  match r with
  | .next t => some t
  | .fault _ => none
  | .refused _ => none

/-- The state after one step whose move is `m`. -/
def afterMove (m : Move) (s : State) : State := (nextState (step (s.push m))).getD s

/-- The state after one command. -/
def after (r : Request) (s : State) : State := afterMove (.command r) s

/-- A small block: two channels, three descriptor slots, capacities 3, 3 and 34. -/
def small : Params :=
  { chCount := 2, slotMax := 3, capCh := 3, capCc := 3, capSlot := 34, claimReversed := .warnNoop, ccountOverflow := .truncate16 }

/-- The small block after power-on. -/
def s0 : State := State.powerOn small 0 Engine.powerOn

/-- The small block built with the other value of both OPEN parameters. -/
def s0Strict : State := { s0 with cfg := { small with claimReversed := .invalid, ccountOverflow := .reject } }

/-- The small block with channel 1 configured, MemToPeripheral, descriptor slot 33 mapped to it. -/
def s1 : State :=
  { s0 with
    bmChan := [false, true, false]
    bmCc := [false, true, false]
    bmSlot := List.replicate 33 false ++ [true]
    chs := [ChannelSlot.clear, { dir := .memToPeripheral, alloc := true, cben := true }]
    engine := { Engine.powerOn with mapping := Engine.powerOn.mapping.set 1 (some 33) } }

/-- The small block with every bit of the three bitmaps set. -/
def sFull : State :=
  { s0 with bmChan := [true, true, true], bmCc := [true, true, true], bmSlot := List.replicate 34 true }

/-- The small block while its dispatcher scans, codes 1 and 40 left in the snapshot, callback on channel 1 only. -/
def sScan : State :=
  { s1 with cv := 0x10000000002, snap := 0x10000000002, ien := 0x2, gs := true, dstate := .scanning }

/-- The small block with the host's INIT under way, its first BM_CLAIM next. -/
def sInit : State := { s0 with host := some { proc := .init [⟨.channelPool, 0, 1⟩], replies := [] } }

/-- The invariant as a test. -/
def invB (s : State) : Bool :=
  decide s.cfg.Valid &&
  decide (s.bmChan.length = s.cfg.capCh ∧ s.bmCc.length = s.cfg.capCc ∧ s.bmSlot.length = s.cfg.capSlot) &&
  decide (s.chs.length = s.cfg.chCount) &&
  decide (s.dstate = .idle → s.snap = 0) && decide (s.dstate = .scanning → s.gs = true) &&
  decide (s.cv &&& s.ien ≠ 0 → s.gs = true) && descriptorsWf s.engine.descriptors

theorem inv_of_invB {s : State} (h : invB s = true) : s.Inv := by
  simp only [invB, Bool.and_eq_true, decide_eq_true_eq] at h
  obtain ⟨⟨⟨⟨⟨⟨h1, h2⟩, h3⟩, h4⟩, h5⟩, h6⟩, h7⟩ := h
  exact ⟨h1, fun b => by cases b; exacts [h2.1, h2.2.1, h2.2.2], h3, h4, h5, h6, h7⟩

theorem s0_inv : s0.Inv := inv_of_invB (by decide)
theorem s0Strict_inv : s0Strict.Inv := inv_of_invB (by decide)
theorem s1_inv : s1.Inv := inv_of_invB (by decide)
theorem sFull_inv : sFull.Inv := inv_of_invB (by decide)
theorem sScan_inv : sScan.Inv := inv_of_invB (by decide)

/-! ## WellFormed refuses the terms that R38 refuses -/

theorem test_ill_formed_acquire : Instr.wellFormed (.bmAcquire .none 0) = false := by decide
theorem test_ill_formed_acquireAny : Instr.wellFormed (.bmAcquireAny .none) = false := by decide
theorem test_ill_formed_release : Instr.wellFormed (.bmRelease .none 0) = false := by decide
theorem test_ill_formed_test : Instr.wellFormed (.bmTest .none 0) = false := by decide
theorem test_ill_formed_readWord : Instr.wellFormed (.bmReadWord .none 0) = false := by decide
theorem test_well_formed_allocRange_absent : Instr.wellFormed (.bmAllocRange .none 0 0) = true := by decide

/-! ## Decoding, by words written out from 30_encoding.md R41 and R45 -/

/-- 0x0000_0201: OPC 0x01, SEL 2. -/
theorem test_decode_allocRange : decode (req 0x00000201 30 65) = .command (.bmAllocRange .slot 30 65) := by decide
/-- OPC 0x01, SEL 3: the absent bitmap. -/
theorem test_decode_allocRange_absent : decode (req 0x00000301 0 0) = .command (.bmAllocRange .none 0 0) := by decide
/-- OPC 0x02, SEL 1 (R41: "`BM_CLAIM.DESCRIPTORSLOTPOOL` is 0x00000102"). -/
theorem test_decode_claim : decode (req 0x00000102 64 99) = .command (.bmClaim .descriptorSlotPool 64 99) := by decide
/-- OPC 0x02, SEL 3. -/
theorem test_decode_claim_kind3 : decode (req 0x00000302 1 2) = .command (.bmClaim .kind3 1 2) := by decide
/-- OPC 0x03, SEL 0. -/
theorem test_decode_acquire : decode (req 0x00000003 5) = .command (.bmAcquire .chan 5) := by decide
/-- OPC 0x04, SEL 2 (R41: "`BM_ACQUIRE_ANY.SLOT` is 0x00000204"). -/
theorem test_decode_acquireAny : decode (req 0x00000204 7 7) = .command (.bmAcquireAny .slot) := by decide
/-- OPC 0x05, SEL 1. -/
theorem test_decode_release : decode (req 0x00000105 0xFFFFFFFF) = .command (.bmRelease .cc 0xFFFFFFFF) := by decide
/-- OPC 0x06, SEL 1. -/
theorem test_decode_test : decode (req 0x00000106 4) = .command (.bmTest .cc 4) := by decide
/-- OPC 0x07, SEL 2. -/
theorem test_decode_readWord : decode (req 0x00000207 3) = .command (.bmReadWord .slot 3) := by decide
/-- OPC 0x10; S28: `ARG[6][15:6]` ignored, `cc` = 2; S27: `ARG[0][31:8]` ignored. -/
theorem test_decode_synth :
    decode (synthReq 0xFFFFFF03 0x11111111 0x22222222 0x00020001 0x00040003 0x00000100 0x0001FFC2) =
      .command (.synth
        { direction := 3, sourceAddr := 0x11111111, destAddr := 0x22222222, sourceElemSize := 1, destElemSize := 2,
          sourceBurst := 3, destBurst := 4, blockSize := 256, completionCode := 2, blockCount := 1 }) := by decide
/-- OPC 0x20. -/
theorem test_decode_slotRead : decode (req 0x00000020 3) = .command (.slotRead 3) := by decide
/-- OPC 0x21; `ARG[1]` = 0x00000301: DIR 1, ALLOC 1, CBEN 1 (T4). -/
theorem test_decode_slotWrite : decode (req 0x00000021 2 0x00000301) = .command (.slotWrite 2 .memToMem true true) := by decide
/-- OPC 0x21; `ARG[1]` = 0x000001FC: DIR 0, ALLOC 1, CBEN 0, the other bits ignored. -/
theorem test_decode_slotWrite_ignored : decode (req 0x00000021 5 0x000001FC) = .command (.slotWrite 5 .idle true false) := by
  decide
/-- OPC 0x22. -/
theorem test_decode_slotTas : decode (req 0x00000022 2) = .command (.slotTas 2) := by decide
/-- OPC 0x23. -/
theorem test_decode_slotClear : decode (req 0x00000023 2) = .command (.slotClear 2) := by decide
/-- OPC 0x28. -/
theorem test_decode_ienSet : decode (req 0x00000028 33) = .command (.ienSet 33) := by decide
/-- OPC 0x29. -/
theorem test_decode_ienClr : decode (req 0x00000029 2) = .command (.ienClr 2) := by decide
/-- OPC 0x2A, SEL 1. -/
theorem test_decode_ienRead : decode (req 0x0000012A) = .command (.ienRead .hi) := by decide
/-- OPC 0x30. -/
theorem test_decode_cfgRead : decode (req 0x00000030 8) = .command (.cfgRead 8) := by decide
/-- OPC 0x31. -/
theorem test_decode_dispRead : decode (req 0x00000031) = .command .dispRead := by decide

/-- X1 to X7 of 95_test_vectors.md: reserved opcodes. -/
theorem test_reserved_opcodes :
    ([0x00000000#32, 0x00000008, 0x00000011, 0x00000024, 0x0000002B, 0x00000032, 0x000000FF].map fun w => decode (req w)) =
      List.replicate 7 (.reject .reservedOpcode) := by decide
/-- X8 to X12 of 95_test_vectors.md: select values not allowed. -/
theorem test_bad_selects :
    ([0x00000303#32, 0x00000307, 0x00000110, 0x00000120, 0x0000022A].map fun w => decode (req w)) =
      List.replicate 5 (.reject .badSelect) := by decide
/-- R37: a reserved bit at each end of `CMD[31:10]`. -/
theorem test_reserved_bits :
    ([0x00000401#32, 0x80000031].map fun w => decode (req w)) =
      List.replicate 2 (.reject .reservedBits) := by decide

/-- The opcode table's numbering: CMD in bits 31..0, then `ARG[0]`, then `ARG[1]`. -/
theorem test_decodeTableWord :
    decodeTableWord 96 0x00000041_0000001E_00000201 = some (.bmAllocRange .slot 30 65) ∧
    decodeTableWord 32 0x00000031 = some .dispRead ∧ decodeTableWord 32 0x00000000 = none := by decide

/-! ## One step of each command, from reset with the default configuration (95_test_vectors.md) -/

/-- The command under test runs as the very next move after reset. -/
theorem test_withFetchWord :
    (nextState (step (State.reset.withFetchWord 32 0x00000004))).map (fun t => (t.resp.status, t.bit .chan 0, t.agenda)) =
      some (.ok, true, []) := by decide +kernel

/-- L1-1: `BM_ALLOC_RANGE.SLOT 30, 65`. -/
theorem test_allocRange_three_words :
    let t := after (req 0x00000201 30 65) State.reset
    t.resp.status = .ok ∧ t.bmWord .slot 0 = 0xC0000000 ∧ t.bmWord .slot 1 = 0xFFFFFFFF ∧ t.bmWord .slot 2 = 0x00000003 ∧
      t.bmWord .slot 3 = 0 := by decide +kernel
/-- A5: `BM_ALLOC_RANGE.CC 0, 0xFFFFFFFF`. -/
theorem test_allocRange_rejected :
    let t := after (req 0x00000101 0 0xFFFFFFFF) State.reset
    t.resp.status = .rangeRejected ∧ t.evt = [.rangeRejected .cc 0 0xFFFFFFFF] ∧ t.bmWord .cc 0 = 0 := by decide +kernel
/-- B1: `BM_CLAIM.CHANNELPOOL 0, 3`. -/
theorem test_claim_channelPool :
    let t := after (req 0x00000002 0 3) State.reset
    t.resp.status = .ok ∧ t.bmWord .chan 0 = 0xF ∧ t.bmWord .cc 0 = 0xF ∧ t.bmWord .slot 0 = 0 := by decide +kernel
/-- B5: `BM_CLAIM.CHANNELPOOL 9, 2`, WarnNoop. -/
theorem test_claim_reversed :
    let t := after (req 0x00000002 9 2) State.reset
    t.resp.status = .ok ∧ t.evt = [.rangeRejected .chan 9 2, .rangeRejected .cc 9 2] ∧ t.bmWord .chan 0 = 0 := by
  decide +kernel
/-- Q2, after B1: `BM_ACQUIRE.CHAN 5`. -/
theorem test_acquire_free :
    let t := after (req 0x00000003 5) (after (req 0x00000002 0 3) State.reset)
    t.resp = ⟨.ok, { w0 := 5 }⟩ ∧ t.bmWord .chan 0 = 0x2F ∧ t.bmWord .cc 0 = 0xF := by decide +kernel
/-- Q4: `BM_ACQUIRE.CHAN 64`. -/
theorem test_acquire_out_of_range : (after (req 0x00000003 64) State.reset).resp = ⟨.indexRange, Words8.zero⟩ := by
  decide +kernel
/-- Y3: `BM_ACQUIRE_ANY.SLOT` with bits 0 to 98 set. -/
theorem test_acquireAny_last :
    let t := after (req 0x00000204) (after (req 0x00000201 0 98) State.reset)
    t.resp = ⟨.ok, { w0 := 99 }⟩ ∧ t.bmWord .slot 3 = 0xF := by decide +kernel
/-- Y4: `BM_ACQUIRE_ANY.SLOT` with every bit set. -/
theorem test_acquireAny_full :
    (after (req 0x00000204) (after (req 0x00000201 0 99) State.reset)).resp = ⟨.allocationFailed, Words8.zero⟩ := by
  decide +kernel
/-- Q17, after B1: `BM_RELEASE.CC 0`. -/
theorem test_release_claimed :
    let t := after (req 0x00000105 0) (after (req 0x00000002 0 3) State.reset)
    t.resp.status = .ok ∧ t.bmWord .cc 0 = 0xE ∧ t.bmWord .chan 0 = 0xF := by decide +kernel
/-- Q7: a release of a free index. -/
theorem test_release_free : (after (req 0x00000005 5) State.reset).resp.status = .releaseFailed := by decide +kernel
/-- Q9, after B1: `BM_TEST.CHAN 3`. -/
theorem test_test_taken :
    (after (req 0x00000006 3) (after (req 0x00000002 0 3) State.reset)).resp = ⟨.ok, { w0 := 1 }⟩ := by decide +kernel
/-- R53: `BM_READ_WORD.SLOT 3` after `BM_ALLOC_RANGE.SLOT 0, 99`. -/
theorem test_readWord_padding :
    (after (req 0x00000207 3) (after (req 0x00000201 0 99) State.reset)).resp = ⟨.ok, { w0 := 0x0000000F }⟩ := by
  decide +kernel
/-- Q16: `BM_READ_WORD.SLOT 4`. -/
theorem test_readWord_out_of_range : (after (req 0x00000207 4) State.reset).resp.status = .indexRange := by decide +kernel
/-- S8: PeripheralToMemory 2/8/32, `cc` = 9. -/
theorem test_synth_p2m :
    (after (synthReq 0x00000003 0x00004000 0x00009000 0x00020002 0x00080008 0x00000020 0x00010009) State.reset).resp =
      ⟨.ok, { w0 := 0x00004000, w1 := 0x00009000, w2 := 0x00040002, w3 := 0x00040004, w4 := 0x00020000, w5 := 0x00080000,
              w6 := 0xFFFF0000, w7 := 0x00109004 }⟩ := by decide +kernel
/-- S20: Idle with two blocks: the warning comes before the checks. -/
theorem test_synth_warns_then_fails :
    let t := after (synthReq 0 0 0 0x00040004 0 0x100 0x00020000) State.reset
    t.resp = ⟨.unsupportedDirection, Words8.zero⟩ ∧ t.evt = [.multiBlockIgnored 2] := by decide +kernel
/-- T5, T11. -/
theorem test_slotRead :
    (after (req 0x00000020 2) (after (req 0x00000021 2 0x301) State.reset)).resp = ⟨.ok, { w0 := 0x301 }⟩ ∧
    (after (req 0x00000020 8) State.reset).resp.status = .invalidChannel := by decide +kernel
/-- T6: every bit of `ARG[1]` set. -/
theorem test_slotWrite_all_ones :
    (after (req 0x00000021 7 0xFFFFFFFF) State.reset).slotAt 7 = ⟨.peripheralToMemory, true, true⟩ := by decide +kernel
/-- T3: the second test-and-set returns 1. -/
theorem test_slotTas_twice :
    let t := after (req 0x00000022 2) (after (req 0x00000022 2) State.reset)
    t.resp = ⟨.ok, { w0 := 1 }⟩ ∧ t.slotAt 2 = ⟨.idle, true, false⟩ := by decide +kernel
/-- T9. -/
theorem test_slotClear :
    (after (req 0x00000023 2) (after (req 0x00000021 2 0x301) State.reset)).slotAt 2 = ⟨.idle, false, false⟩ := by
  decide +kernel
/-- E5: `CV[2]` = 1, `IEN_SET 2` raises `GS`. -/
theorem test_ienSet_raises :
    let t := after (req 0x00000028 2) { State.reset with cv := 4 }
    t.ien = 4 ∧ t.gs = true := by decide +kernel
/-- E6: `IEN_CLR 2` leaves `GS`. -/
theorem test_ienClr_keeps_gs :
    let t := after (req 0x00000029 2) { State.reset with cv := 4, ien := 4, gs := true }
    t.ien = 0 ∧ t.gs = true := by decide +kernel
/-- E10. -/
theorem test_ienRead_hi :
    (after (req 0x0000012A) { State.reset with ien := 0x8000000200000000 }).resp = ⟨.ok, { w0 := 0x80000002 }⟩ := by
  decide +kernel
/-- G1 to G8. -/
theorem test_cfgRead_all :
    ([0, 1, 2, 3, 4, 5, 6, 7].map fun k => (after (req 0x00000030 k) State.reset).resp.res.w0) =
      [8, 100, 64, 64, 100, 32, 64, 0x0000FFFF] := by decide +kernel
/-- G9 with both OPEN parameters changed, G10. -/
theorem test_cfgRead_open :
    (after (req 0x00000030 8) s0Strict).resp = ⟨.ok, { w0 := 3 }⟩ ∧ (after (req 0x00000030 9) s0).resp.status = .indexRange := by
  decide +kernel
/-- G12. -/
theorem test_dispRead_scanning :
    (after (req 0x00000031) (dispatcherStep { State.reset with cv := 0x000001000000000A, gs := true })).resp =
      ⟨.ok, { w0 := 3, w1 := 0xA, w2 := 0x100 }⟩ := by decide +kernel
/-- X1: `CMD` = 0 is refused and changes nothing else. -/
theorem test_badCommand :
    (after (req 0 5 7) State.reset).resp = ⟨.badCommand, Words8.zero⟩ ∧ (after (req 0 5 7) State.reset).evt = [] := by
  decide +kernel

/-! ## The other agents -/

/-- R84: code 40 has no channel: acknowledged, one warning, no live read. -/
theorem test_dBit_unmapped :
    let t := afterMove .dispatcher { sScan with snap := 0x10000000000 }
    t.evt = [.unmappedCode 40] ∧ t.cv = 2 ∧ t.snap = 0 ∧ t.draws = 0 := by decide +kernel
/-- R84: a channel with no callback is acknowledged and silently skipped. -/
theorem test_dBit_no_callback :
    let t := afterMove .dispatcher { sScan with snap := 0x1, cv := 0x3 }
    t.evt = [] ∧ t.cv = 2 ∧ t.snap = 0 ∧ t.draws = 1 := by decide +kernel
/-- R85: the exit re-evaluates once. -/
theorem test_dExit_rearms :
    let t := afterMove .dispatcher { sScan with snap := 0 }
    t.dstate = .idle ∧ t.gs = true := by decide +kernel
/-- R86, L1-9: (65535, 65535, 65535) is 281462092005375 bytes and Block; (4, 64, 0) is Complete. -/
theorem test_completionStatus :
    LiveCounts.pendingLength ⟨65535, 65535, 65535⟩ = 281462092005375 ∧ completionStatus ⟨65535, 65535, 65535⟩ = .block ∧
    completionStatus ⟨4, 64, 0⟩ = .complete := by decide
/-- R81: a completion of a disabled code does not raise `GS`. -/
theorem test_complete_disabled : (afterMove (.complete 40) s0).cv = 0x10000000000 ∧ (afterMove (.complete 40) s0).gs = false := by
  decide +kernel
/-- R130: reset abandons the scan; `CV` stays. -/
theorem test_reset_during_scan :
    let t := afterMove .reset sScan
    t.dstate = .idle ∧ t.snap = 0 ∧ t.ien = 0 ∧ t.bmChan = [false, false, false] ∧ t.cv = 0x10000000002 := by decide +kernel
/-- R100: `ENG_CLEAR_PENDING(1)` clears `CV[1]`, and `ENG_MAPPED_SLOT(1)` gives the slot mapped last. -/
theorem test_engine_operations :
    (afterMove (.engine (.clearPending 1)) sScan).cv = 0x10000000000 ∧
    (afterMove (.engine (.mappedSlot 1)) s1).engReply = .slot 33 := by decide +kernel
/-- L1-7: `STOP(6)` from reset. -/
theorem test_stop_not_allocated :
    (Prog.runAlone (progStop 6) State.reset).map (fun p => p.2.status) = some .notAllocated := by decide +kernel
/-- L1-3: `INIT`, then `CONFIGURE(2, ...)` with descriptor slots 0 to 3 claimed: CHAN w0 = 0x7, SLOT w0 = 0x1F, slot 4 mapped. -/
theorem test_configure :
    (Prog.runAlone (progConfigure 2
        { fields :=
            { direction := 1, sourceAddr := 0, destAddr := 0, sourceElemSize := 4, destElemSize := 4, sourceBurst := 0,
              destBurst := 0, blockSize := 256, completionCode := 0, blockCount := 1 }, callback := true })
        (after (req 0x00000102 0 3) (after (req 0x00000002 0 1) State.reset))).map
      (fun p => decide (p.1.bmWord .chan 0 = 0x7 ∧ p.1.bmWord .cc 0 = 0x7 ∧ p.1.bmWord .slot 0 = 0x1F ∧
        p.1.engine.mapping[2] = some 4 ∧ p.1.ien = 4 ∧ p.2.status = .ok)) = some true := by decide +kernel

/-- STOP of a MemToPeripheral channel with a slot (44_host_lifecycle.md R111): event mode and pending state off for channel 1 alone,
the manual enable left. -/
theorem test_stop :
    (Prog.runAlone (progStop 1)
        { s1 with cv := 6, engine := { s1.engine with eventArmed := 6, eventPending := 6, manualEnabled := 6 } }).map
      (fun p => (p.2.status, p.1.cv, p.1.engine.eventArmed, p.1.engine.eventPending, p.1.engine.manualEnabled)) =
      some (.ok, 4, 4, 4, 6) := by decide +kernel

/-! ## Witnesses: for every statement with hypotheses, a concrete state and operands that meet them -/

/-- A SYNTH request record of direction `d`: element size 4, burst `b`, block size `bs`, completion code 1, one block. -/
def synthRec (d : BitVec 8) (b : Half) (bs : Word) : SynthRequest :=
  { direction := d, sourceAddr := 0x1000, destAddr := 0x2000, sourceElemSize := 4, destElemSize := 4, sourceBurst := b,
    destBurst := b, blockSize := bs, completionCode := 1, blockCount := 1 }

/-- A CONFIGURE request for a MemToMem transfer of `bs` bytes with a callback. -/
def confReq (bs : Word) : ConfigureRequest := { fields := synthRec 1 0 bs, callback := true }

theorem witness_DecodeOfEncodeIsIdentity : Instr.wellFormed (.slotWrite 1 .peripheralToMemory true false) = true := by decide

theorem witness_AcceptedCommandWordIsTheEncoding : decode (req 0x00000302 1 2) = .command (.bmClaim .kind3 1 2) := by decide

/-- One command for each of the five clauses, with argument words that differ in what the clause lets differ. -/
theorem witness_IgnoredArgumentBitsHaveNoEffect :
    (decode (req 0x00000031 1 2) = .command .dispRead ∧ Instr.op .dispRead ∈ [.bmAcquireAny, .ienRead, .dispRead]) ∧
    (decode (req 0x00000028 5 2) = .command (.ienSet 5) ∧ (req 0x00000028 5 9).args.w0 = (req 0x00000028 5 2).args.w0) ∧
    (decode (req 0x00000001 5 6) = .command (.bmAllocRange .chan 5 6) ∧
      { (req 0x00000001 5 6).args with w7 := 1 }.w1 = (req 0x00000001 5 6).args.w1) ∧
    (decode (req 0x00000021 1 0x301) = .command (.slotWrite 1 .memToMem true true) ∧
      (0xFFFFFFFD#32).toNat % 4 = (0x301#32).toNat % 4 ∧ (0xFFFFFFFD#32).toNat / 256 % 4 = (0x301#32).toNat / 256 % 4) ∧
    (decode (synthReq 1 0 0 0x00040004 0 256 0x00010002) =
        .command (.synth { synthRec 1 0 256 with sourceAddr := 0, destAddr := 0, completionCode := 2 }) ∧
      (0xFFFFFF01#32).toNat % 256 = (1#32).toNat % 256 ∧ (0x0001FFC2#32).toNat % 64 = (0x00010002#32).toNat % 64 ∧
      (0x0001FFC2#32).toNat / 65536 = (0x00010002#32).toNat / 65536) := by decide

/-- One command word for each of the five causes: RSV at its lowest bit, a reserved opcode, and the three SEL rules. -/
theorem witness_UnnamedCommandWordsAreRefused :
    s0.cfg.Valid ∧ NamesNoCommand 0x00000401 ∧ NamesNoCommand 0x00000000 ∧ NamesNoCommand 0x00000303 ∧
      NamesNoCommand 0x0000022A ∧ NamesNoCommand 0x00000110 := by
  refine ⟨by decide, ?_, ?_, ?_, ?_, ?_⟩ <;> unfold NamesNoCommand <;> decide

theorem witness_OtherCommandWordsDecode : ¬ NamesNoCommand 0x00000302 ∧ ¬ NamesNoCommand 0x0000012A := by
  refine ⟨?_, ?_⟩ <;> unfold NamesNoCommand <;> decide

theorem witness_StepRunsTheDecodedCommand : s1.cfg.Valid ∧ decode (req 0x00000020 1) = .command (.slotRead 1) := by decide

/-- The last index alone, and the whole bitmap. -/
theorem witness_AllocRangeSetsExactlyTheRange :
    s0.Inv ∧ ((33#32).toNat ≤ (33#32).toNat ∧ (33#32).toNat < s0.cfg.cap .slot) ∧
      ((0#32).toNat ≤ (33#32).toNat ∧ (33#32).toNat < s0.cfg.cap .slot) := ⟨s0_inv, by decide, by decide⟩

/-- The absent bitmap; a range reversed by one; `end` equal to the capacity. -/
theorem witness_AllocRangeRejectsBadRanges :
    (BmSel.none = BmSel.none) ∧ ((2#32).toNat < (3#32).toNat) ∧ (BmSel.slot = Bitmap.slot.sel ∧ s0.cfg.cap .slot ≤ (34#32).toNat) := by
  decide

/-- A range in one word, and one over a word boundary. -/
theorem witness_AllocRangeIsTheWordUpdate :
    s0.Inv ∧ ((3#32).toNat ≤ (7#32).toNat ∧ (7#32).toNat < s0.cfg.cap .slot) ∧
      ((31#32).toNat ≤ (32#32).toNat ∧ (32#32).toNat < s0.cfg.cap .slot) := ⟨s0_inv, by decide, by decide⟩

/-- `end` equal to each count; a reversed range under each value of CLAIM_REVERSED; `end` one below each count. -/
theorem witness_ClaimChecksAndTakesTheRange :
    s0.Inv ∧ s0Strict.Inv ∧ s0.cfg.chCount ≤ (2#32).toNat ∧ s0.cfg.slotMax ≤ (3#32).toNat ∧
      ((0#32).toNat < (1#32).toNat ∧ s0Strict.cfg.claimReversed = .invalid) ∧
      ((0#32).toNat < (1#32).toNat ∧ s0.cfg.claimReversed = .warnNoop ∧ (0#32).toNat < s0.cfg.chCount ∧
        (0#32).toNat < s0.cfg.slotMax) ∧
      ((1#32).toNat ≤ (1#32).toNat ∧ (1#32).toNat < s0.cfg.chCount) ∧
      ((0#32).toNat ≤ (2#32).toNat ∧ (2#32).toNat < s0.cfg.slotMax) := ⟨s0_inv, s0Strict_inv, by decide⟩

/-- An index equal to the capacity; the last index, taken; the last index, free. -/
theorem witness_AcquireTestsAndSets :
    s0.Inv ∧ s1.Inv ∧ s0.cfg.cap .slot ≤ (34#32).toNat ∧ ((33#32).toNat < s1.cfg.cap .slot ∧ s1.bit .slot 33 = true) ∧
      ((33#32).toNat < s0.cfg.cap .slot ∧ s0.bit .slot 33 = false) := ⟨s0_inv, s1_inv, by decide⟩

/-- A full bitmap; one whose lowest free index is 2. -/
theorem witness_AcquireAnyTakesTheLowestFree :
    sFull.Inv ∧ (∀ j, j < sFull.cfg.cap .chan → sFull.bit .chan j = true) ∧
      (State.setBit sFull .chan 2 false).Inv ∧
      (2 < sFull.cfg.cap .chan ∧ (State.setBit sFull .chan 2 false).bit .chan 2 = false ∧
        ∀ j, j < 2 → (State.setBit sFull .chan 2 false).bit .chan j = true) :=
  ⟨sFull_inv, by decide, inv_of_invB (by decide), by decide⟩

theorem witness_ReleaseTestsAndClears :
    s0.Inv ∧ s1.Inv ∧ s0.cfg.cap .cc ≤ (3#32).toNat ∧ ((2#32).toNat < s0.cfg.cap .cc ∧ s0.bit .cc 2 = false) ∧
      ((1#32).toNat < s1.cfg.cap .cc ∧ s1.bit .cc 1 = true) := ⟨s0_inv, s1_inv, by decide⟩

theorem witness_TestReadsOneBit : s0.cfg.cap .slot ≤ (34#32).toNat ∧ (33#32).toNat < s0.cfg.cap .slot := by decide

/-- Word 2 is the first that does not exist, word 1 the last that does. -/
theorem witness_ReadWordPacksThirtyTwoBits :
    s0.Inv ∧ s0.cfg.cap .slot ≤ 32 * (2#32).toNat ∧ 32 * (1#32).toNat < s0.cfg.cap .slot := ⟨s0_inv, by decide⟩

theorem witness_AllocatorCommandsTouchNothingElse :
    Instr.op (.bmClaim .channelPool 0 1) ∈
        [.bmAllocRange, .bmClaim, .bmAcquire, .bmAcquireAny, .bmRelease, .bmTest, .bmReadWord] ∧
      ∃ t, exec (.bmClaim .channelPool 0 1) s0 = .next t ∧ t.bm .chan ≠ s0.bm .chan ∧ t.bm .cc ≠ s0.bm .cc :=
  ⟨by decide, _, rfl, by decide, by decide⟩

/-- A MemToMem request with the largest `b_count`, 65535. -/
theorem witness_SynthMemToMemDescriptor :
    (synthRec 1 0 0x3FFFC).direction = 1 ∧ (synthRec 1 0 0x3FFFC).sourceElemSize = (synthRec 1 0 0x3FFFC).destElemSize ∧
      (synthRec 1 0 0x3FFFC).sourceElemSize ≠ 0 ∧ (0x3FFFC#32).toNat % (4#16).toNat = 0 ∧
      (0x3FFFC#32).toNat / (4#16).toNat ≤ 65535 := by decide

/-- Both peripheral directions; `c_count` = 65535, and 65536 with Truncate16. -/
theorem witness_SynthPeripheralDescriptor :
    ((synthRec 2 4 0x3FFFC).direction = 2 ∧ (0x3FFFC#32).toNat % (4#16).toNat = 0 ∧ (0x3FFFC#32).toNat / (4#16).toNat ≤ 65535) ∧
    ((synthRec 3 4 0x40000).direction = 3 ∧ (0x40000#32).toNat % (4#16).toNat = 0 ∧ s0.cfg.ccountOverflow = .truncate16) ∧
    ((synthRec 3 4 0x40000).sourceElemSize = (synthRec 3 4 0x40000).destElemSize ∧
      (synthRec 3 4 0x40000).sourceBurst = (synthRec 3 4 0x40000).destBurst ∧ (synthRec 3 4 0x40000).sourceBurst ≠ 0 ∧
      (synthRec 3 4 0x40000).sourceElemSize ≠ 0 ∧
      (synthRec 3 4 0x40000).sourceBurst.toNat % (synthRec 3 4 0x40000).sourceElemSize.toNat = 0) := by decide

/-- One request for each of the six causes, in the statement's order (S12, S14, S15, S5 in its own sizes, S18, S11). -/
theorem witness_SynthReportsTheFirstFailure :
    ((synthRec 0 4 4).direction ≠ 1 ∧ ¬ ((synthRec 0 4 4).direction = 2 ∨ (synthRec 0 4 4).direction = 3)) ∧
    ((4#16) ≠ (2#16) ∧ { synthRec 1 0 3 with destElemSize := 2 }.direction = 1) ∧
    ({ synthRec 2 16 64 with destBurst := 32 }.sourceBurst ≠ { synthRec 2 16 64 with destBurst := 32 }.destBurst) ∧
    (65535 < (synthRec 1 0 0x40000).blockSize.toNat / (synthRec 1 0 0x40000).sourceElemSize.toNat) ∧
    ((synthRec 2 0 64).sourceBurst.toNat = 0) ∧
    (65535 < (synthRec 2 4 0x40000).blockSize.toNat / (synthRec 2 4 0x40000).sourceBurst.toNat ∧
      s0Strict.cfg.ccountOverflow = .reject) := by decide

theorem witness_SynthCountsMultiplyToTheBlockSize :
    (∃ t, exec (.synth (synthRec 1 0 256)) s0 = .next t ∧ t.resp.status = .ok) ∧ (synthRec 1 0 256).direction = 1 ∧
    (∃ t, exec (.synth (synthRec 2 16 64)) s0 = .next t ∧ t.resp.status = .ok) ∧ (64#32).toNat / (16#16).toNat ≤ 65535 :=
  ⟨⟨_, rfl, by decide⟩, by decide, ⟨_, rfl, by decide⟩, by decide⟩

theorem witness_SynthIsPureButForTheWarning : sScan.cfg.ccountOverflow = s0.cfg.ccountOverflow := by decide

/-- Channel 2 is the first that does not exist, channel 1 the last that does. -/
theorem witness_SlotReadPacksTheSlot : s1.cfg.chCount ≤ (2#32).toNat ∧ (1#32).toNat < s1.cfg.chCount := by decide

theorem witness_SlotWriteStoresAllThreeFields :
    s1.Inv ∧ s1.cfg.chCount ≤ (2#32).toNat ∧ (1#32).toNat < s1.cfg.chCount := ⟨s1_inv, by decide⟩

theorem witness_SlotTasReturnsTheOldFlag :
    s1.Inv ∧ s1.cfg.chCount ≤ (2#32).toNat ∧ (1#32).toNat < s1.cfg.chCount := ⟨s1_inv, by decide⟩

theorem witness_SlotClearResetsTheSlot :
    s1.Inv ∧ s1.cfg.chCount ≤ (2#32).toNat ∧ (1#32).toNat < s1.cfg.chCount := ⟨s1_inv, by decide⟩

theorem witness_IenSetEnablesAndRaises : 64 ≤ (64#32).toNat ∧ (63#32).toNat < 64 := by decide

theorem witness_IenClrDisables : 64 ≤ (64#32).toNat ∧ (63#32).toNat < 64 := by decide

theorem witness_CfgReadReturnsTheParameter : s0.cfg.Valid ∧ 9 ≤ (9#32).toNat ∧ (8#32).toNat < 9 := by decide

theorem witness_CommandsWriteOnlyWhatTheAccessTableAllows : ∃ t, exec (.ienSet 1) sScan = .next t ∧ sScan.gs = true :=
  ⟨_, rfl, by decide⟩

theorem witness_InterruptEntryTakesTheSnapshot :
    s0.cfg.Valid ∧ { s0 with gs := true }.dstate = .idle ∧ { s0 with gs := true }.gs = true := by decide

/-- The lowest code of the snapshot has a channel with a callback; one without; none at all. -/
theorem witness_DispatcherBitAcknowledgesTheLowestCode :
    sScan.Inv ∧ (sScan.dstate = .scanning ∧ sScan.snap.getLsbD 1 = true ∧ (∀ j, j < 1 → sScan.snap.getLsbD j = false) ∧
      1 < sScan.cfg.chCount ∧ (sScan.slotAt 1).cben = true) ∧
    { sScan with snap := 1 }.Inv ∧ ({ sScan with snap := 1 }.snap.getLsbD 0 = true ∧ (sScan.slotAt 0).cben = false) ∧
    { sScan with snap := 4 }.Inv ∧ ({ sScan with snap := 4 }.snap.getLsbD 2 = true ∧
      (∀ j, j < 2 → { sScan with snap := 4 }.snap.getLsbD j = false) ∧ sScan.cfg.chCount ≤ 2) :=
  ⟨sScan_inv, by decide, inv_of_invB (by decide), by decide, inv_of_invB (by decide), by decide⟩

theorem witness_InterruptReturnReevaluatesOnce :
    s0.cfg.Valid ∧ { sScan with snap := 0 }.dstate = .scanning ∧ { sScan with snap := 0 }.snap = 0 := by decide

theorem witness_CompletionSetsItsBit : s0.cfg.Valid := by decide

theorem witness_DispatcherIgnoresAllocatorAndDirection :
    [ChannelSlot.clear, { dir := .idle, alloc := false, cben := true }].map (fun c => c.cben) = s1.chs.map (fun c => c.cben) := by
  decide

theorem witness_ScanStateMovesOnlyWithTheDispatcher :
    Move.complete 1 ≠ .dispatcher ∧ Move.complete 1 ≠ .reset ∧ ∃ t, step (s1.push (.complete 1)) = .next t :=
  ⟨by decide, by decide, _, rfl⟩

theorem witness_InvocationIsEntryBitsExit :
    { s1 with gs := true, cv := 0x10000000002 }.dstate = .idle ∧ { s1 with gs := true, cv := 0x10000000002 }.gs = true ∧
      setCodes 0x10000000002 = [1, 40] := by decide

theorem witness_InvocationHandlesEveryCodeOnceInOrder :
    { s1 with gs := true, cv := 0xFFFFFFFFFFFFFFFF }.dstate = .idle ∧ { s1 with gs := true, cv := 0xFFFFFFFFFFFFFFFF }.gs = true := by
  decide

theorem witness_QuiescenceWithinTwoInvocations : sScan.Inv ∧ sScan.dstate = .scanning := ⟨sScan_inv, by decide⟩

theorem witness_StepKeepsTheInvariant : s1.Inv ∧ ∃ t, step (s1.push (.command (req 0x00000028 1))) = .next t :=
  ⟨s1_inv, _, rfl⟩

theorem witness_PowerOnHasTheInvariant : small.Valid ∧ descriptorsWf [(3, Words8.zero), (7, Words8.zero)] = true := by decide

theorem witness_ResetRestoresTheBlock : sScan.cfg.Valid := by decide

theorem witness_EveryStepCompletes : sScan.cfg.Valid := by decide

/-- More channels than the 64 codes. -/
theorem witness_BadConfigurationIsRefused : ¬ { s0 with cfg := { small with chCount := 65 } }.cfg.Valid := by decide

/-- The exit with nothing enabled pending, and a reset. -/
theorem witness_GroupStatusIsClearedOnlyAtExit :
    (∃ t, { sScan with snap := 0, cv := 0 }.gs = true ∧ step ({ sScan with snap := 0, cv := 0 }.push .dispatcher) = .next t ∧
      t.gs = false) ∧
    (∃ t, sScan.gs = true ∧ step (sScan.push .reset) = .next t ∧ t.gs = false) :=
  ⟨⟨_, by decide, rfl, by decide⟩, ⟨_, by decide, rfl, by decide⟩⟩

/-- INIT under way: a completion, the host's own BM_CLAIM, and a call that waits for it; and with no procedure under way. -/
theorem witness_NoInvocationBeforeTheFirstEnable :
    (sInit.ien = 0 ∧ sInit.gs = false ∧ sInit.dstate = .idle ∧ sInit.host.isSome = true ∧
      sInit.nextHostOp = some (.command (.bmClaim .channelPool 0 1))) ∧
      (s0.ien = 0 ∧ s0.gs = false ∧ s0.dstate = .idle ∧ s0.nextHostOp = none) ∧
      ∀ m ∈ [Move.complete 1, .host, .call (.start 1)],
        (∀ (r : Request) (i : Word), m = .command r → decode r ≠ .command (.ienSet i)) ∧
        (∀ i : Word, sInit.nextHostOp ≠ some (.command (.ienSet i))) ∧ ∃ t, step (sInit.push m) = .next t := by
  refine ⟨by decide, by decide, fun m hm => ?_⟩
  simp only [List.mem_cons, List.not_mem_nil, or_false] at hm
  have hn : ∀ i : Word, sInit.nextHostOp ≠ some (.command (.ienSet i)) := fun _ h => nomatch h
  rcases hm with rfl | rfl | rfl
  · exact ⟨fun _ _ h => (nomatch h), hn, _, rfl⟩
  · exact ⟨fun _ _ h => (nomatch h), hn, _, rfl⟩
  · exact ⟨fun _ _ h => (nomatch h), hn, _, rfl⟩

theorem witness_EventsOnlyGrow :
    Move.command (req 0x00000301) ≠ .reset ∧ ∃ t, step (s0.push (.command (req 0x00000301))) = .next t ∧ t.evt ≠ s0.evt :=
  ⟨by decide, _, rfl, by decide⟩

theorem witness_ParametersNeverChange : ∃ t, step (sScan.push .reset) = .next t := ⟨_, rfl⟩

theorem witness_HostStepsFollowTheProcedure :
    s1.cfg.Valid ∧ s1.host = none ∧ s1.agenda = [] ∧ ∃ t r, Prog.runAlone (procProg (.start 1)) s1 = some (t, r) ∧ r.status = .ok :=
  ⟨by decide, by decide, by decide, _, _, rfl, by decide⟩

/-- A channel number equal to the count; the last channel, not allocated. -/
theorem witness_UnusableChannelIsRefusedFirst :
    progStop 1 ∈ [progStart 1, progStop 1, progGetStatus 1, progDeconfigure 1] ∧ s0.cfg.chCount ≤ (2#32).toNat ∧
      ((1#32).toNat < s0.cfg.chCount ∧ (s0.slotAt 1).alloc = false) :=
  ⟨.tail _ (.head _), by decide, by decide⟩

/-- An allocated channel of each direction. -/
theorem witness_StartTriggersByDirection :
    ∀ d ∈ [Direction.idle, .memToMem, .memToPeripheral, .peripheralToMemory],
      (s1.setSlot 1 { dir := d, alloc := true, cben := false }).Inv ∧ (1#32).toNat < s1.cfg.chCount ∧
        ((s1.setSlot 1 { dir := d, alloc := true, cben := false }).slotAt 1).alloc = true ∧
        ((s1.setSlot 1 { dir := d, alloc := true, cben := false }).slotAt 1).dir = d := by
  intro d _
  refine ⟨inv_of_invB ?_, ?_, ?_, ?_⟩ <;> cases d <;> decide

theorem witness_GetStatusReportsByTheFormula : s1.Inv ∧ (1#32).toNat < s1.cfg.chCount ∧ (s1.slotAt 1).alloc = true :=
  ⟨s1_inv, by decide⟩

/-- The triple held; and each of its three bits free. -/
theorem witness_DeconfigureReleasesTheTriple :
    s1.Inv ∧ ((1#32).toNat < s1.cfg.chCount ∧ (s1.slotAt 1).alloc = true ∧
      s1.engine.mapping[(channelOf 1).val] = some 33 ∧ s1.bit .chan 1 = true ∧ s1.bit .cc 1 = true ∧ s1.bit .slot 33 = true) ∧
    (s1.setBit .chan 1 false).Inv ∧ (s1.setBit .chan 1 false).bit .chan 1 = false ∧
    (s1.setBit .cc 1 false).Inv ∧ (s1.setBit .cc 1 false).bit .cc 1 = false ∧
    (s1.setBit .slot 33 false).Inv ∧ (s1.setBit .slot 33 false).bit .slot 33 = false :=
  ⟨s1_inv, by decide, inv_of_invB (by decide), by decide, inv_of_invB (by decide), by decide, inv_of_invB (by decide), by decide⟩

theorem witness_ConfigureOwnsItsTriple :
    s0.Inv ∧ ∃ t r, Prog.runAlone (progConfigure 1 (confReq 256)) s0 = some (t, r) ∧ r.status = .ok :=
  ⟨s0_inv, _, _, rfl, by decide⟩

/-- A block size that is no multiple of the element size. -/
theorem witness_FailedConfigureReleasesEverything :
    s0.Inv ∧ (1#32).toNat < s0.cfg.chCount ∧ (s0.slotAt 1).alloc = false ∧
      ∃ t r, Prog.runAlone (progConfigure 1 (confReq 255)) s0 = some (t, r) ∧ r.status ≠ .ok :=
  ⟨s0_inv, by decide, by decide, _, _, rfl, by decide⟩

/-- A channel that is configured already. -/
theorem witness_ConfigureTwiceLeavesTheOccupancyOfOnce :
    s1.Inv ∧ ∃ t r, Prog.runAlone (progConfigure 1 (confReq 256)) s1 = some (t, r) ∧ r.status = .ok :=
  ⟨s1_inv, _, _, rfl, by decide⟩

theorem witness_ProceduresReturnTheirStatuses :
    s1.Inv ∧ ∃ t r, Prog.runAlone (procProg (.deconfigure 1)) s1 = some (t, r) := ⟨s1_inv, _, _, rfl⟩

/-- A line of each kind that ends one below the kind's count. -/
theorem witness_InitClaimsEveryRange :
    s0.Inv ∧ ∀ x, x ∈ [(⟨.channelPool, 0, 1⟩ : ClaimTriple), ⟨.descriptorSlotPool, 2, 2⟩] → x.Good s0.cfg := by
  refine ⟨s0_inv, fun x hx => ?_⟩
  simp only [List.mem_cons, List.not_mem_nil, or_false] at hx
  rcases hx with rfl | rfl <;> unfold ClaimTriple.Good <;> decide

end Sys2Proof.Tests
end

namespace Sys2Proof.Machine

/-! ## What the agents' moves answer

Every command answers a next state and leaves what is outside the block alone; every move of every agent answers a next state
with the same parameters. -/

/-- The outcome is a next state, and `P` holds of it: neither a fault nor a refusal. -/
def Answers (r : Result) (P : State → Prop) : Prop := ∃ t, r = .next t ∧ P t

@[simp] theorem answers_next (s : State) (P : State → Prop) : Answers (.next s) P ↔ P s := by
  constructor
  · rintro ⟨_, e, h⟩
    cases e
    exact h
  · exact fun h => ⟨s, rfl, h⟩

@[simp] theorem answers_ok (r : Words8) (s : State) (P : State → Prop) : Answers (ok r s) P ↔ P (s.respond .ok r) :=
  answers_next _ P

@[simp] theorem answers_fail (st : Status) (s : State) (P : State → Prop) :
    Answers (fail st s) P ↔ P (s.respond st Words8.zero) :=
  answers_next _ P

theorem Answers.mono {r : Result} {P Q : State → Prop} (h : Answers r P) (hPQ : ∀ t, P t → Q t) : Answers r Q := by
  obtain ⟨t, e, ht⟩ := h
  exact ⟨t, e, hPQ t ht⟩

/-! ### Updates of the block alone -/

@[simp] theorem keepsEnvironment_refl (s : State) : KeepsEnvironment s s := ⟨rfl, rfl, rfl, rfl, rfl, rfl, rfl, rfl⟩

@[simp] theorem keepsEnvironment_respond (s u : State) (st : Status) (r : Words8) :
    KeepsEnvironment s (u.respond st r) ↔ KeepsEnvironment s u := Iff.rfl

@[simp] theorem keepsEnvironment_emit (s : State) (e : Event) : KeepsEnvironment s (s.emit e) := keepsEnvironment_refl s

@[simp] theorem keepsEnvironment_setSlot (s : State) (c : Nat) (v : ChannelSlot) : KeepsEnvironment s (s.setSlot c v) :=
  keepsEnvironment_refl s

@[simp] theorem keepsEnvironment_setBit (s : State) (b : Bitmap) (i : Nat) (v : Bool) :
    KeepsEnvironment s (s.setBit b i v) := by simp [KeepsEnvironment]

@[simp] theorem keepsEnvironment_setRange (s : State) (b : Bitmap) (first last : Nat) :
    KeepsEnvironment s (s.setRange b first last) := by simp [KeepsEnvironment]

@[simp] theorem keepsEnvironment_setTargets (ts : List Bitmap) (first last : Nat) (s : State) :
    KeepsEnvironment s (setTargets ts first last s) := by
  obtain ⟨-, -, -, h⟩ := setTargets_keeps ts first last s
  exact h

@[simp] theorem keepsEnvironment_warnTargets (ts : List Bitmap) (first last : Word) (s : State) :
    KeepsEnvironment s (warnTargets ts first last s) := by
  rw [warnTargets_eq]
  exact keepsEnvironment_refl s

@[simp] theorem keepsEnvironment_warnBlocks (n : Half) (s : State) : KeepsEnvironment s (warnBlocks n s) := by
  unfold warnBlocks
  split <;> simp

/-! ### Commands -/

theorem execBmAllocRange_answers (b : BmSel) (first last : Word) (s : State) :
    Answers (execBmAllocRange b first last s) (KeepsEnvironment s) := by
  unfold execBmAllocRange
  split
  · simp
  · split <;> simp

theorem execBmClaim_answers (k : ClaimKind) (first last : Word) (s : State) :
    Answers (execBmClaim k first last s) (KeepsEnvironment s) := by
  unfold execBmClaim
  split
  · simp
  · split
    · simp
    · split
      · split <;> simp
      · simp

theorem execBmAcquire_answers (b : BmSel) (i : Word) (s : State) :
    Answers (execBmAcquire b i s) (KeepsEnvironment s) := by
  unfold execBmAcquire
  split
  · simp
  · split
    · simp
    · split <;> simp

theorem execBmAcquireAny_answers (b : BmSel) (s : State) : Answers (execBmAcquireAny b s) (KeepsEnvironment s) := by
  unfold execBmAcquireAny
  split
  · simp
  · split <;> simp

theorem execBmRelease_answers (b : BmSel) (i : Word) (s : State) :
    Answers (execBmRelease b i s) (KeepsEnvironment s) := by
  unfold execBmRelease
  split
  · simp
  · split
    · simp
    · split <;> simp

theorem execBmTest_answers (b : BmSel) (i : Word) (s : State) : Answers (execBmTest b i s) (KeepsEnvironment s) := by
  unfold execBmTest
  split
  · simp
  · split <;> simp

theorem execBmReadWord_answers (b : BmSel) (k : Word) (s : State) :
    Answers (execBmReadWord b k s) (KeepsEnvironment s) := by
  unfold execBmReadWord
  split
  · simp
  · split <;> simp

theorem execSynth_answers (q : SynthRequest) (s : State) : Answers (execSynth q s) (KeepsEnvironment s) := by
  unfold execSynth
  split <;> simp

theorem execSlotRead_answers (c : Word) (s : State) : Answers (execSlotRead c s) (KeepsEnvironment s) := by
  unfold execSlotRead
  split <;> simp

theorem execSlotWrite_answers (c : Word) (dir : Direction) (alloc cben : Bool) (s : State) :
    Answers (execSlotWrite c dir alloc cben s) (KeepsEnvironment s) := by
  unfold execSlotWrite
  split <;> simp

theorem execSlotTas_answers (c : Word) (s : State) : Answers (execSlotTas c s) (KeepsEnvironment s) := by
  unfold execSlotTas
  split <;> simp

theorem execSlotClear_answers (c : Word) (s : State) : Answers (execSlotClear c s) (KeepsEnvironment s) := by
  unfold execSlotClear
  split <;> simp

theorem execIenSet_answers (i : Word) (s : State) : Answers (execIenSet i s) (KeepsEnvironment s) := by
  unfold execIenSet
  split
  · simp
  · simp [KeepsEnvironment]

theorem execIenClr_answers (i : Word) (s : State) : Answers (execIenClr i s) (KeepsEnvironment s) := by
  unfold execIenClr
  split
  · simp
  · simp [KeepsEnvironment]

theorem execIenRead_answers (h : MaskHalf) (s : State) : Answers (execIenRead h s) (KeepsEnvironment s) := by
  cases h <;> simp [execIenRead]

theorem execCfgRead_answers (sel : Word) (s : State) : Answers (execCfgRead sel s) (KeepsEnvironment s) := by
  unfold execCfgRead
  split <;> simp

theorem execDispRead_answers (s : State) : Answers (execDispRead s) (KeepsEnvironment s) := by simp [execDispRead]

/-- Every command completes, and changes neither a parameter nor anything outside the block (43_system.md R93). -/
theorem exec_answers (i : Instr) (s : State) : Answers (exec i s) (KeepsEnvironment s) := by
  cases i with
  | bmAllocRange b first last => exact execBmAllocRange_answers b first last s
  | bmClaim k first last => exact execBmClaim_answers k first last s
  | bmAcquire b i => exact execBmAcquire_answers b i s
  | bmAcquireAny b => exact execBmAcquireAny_answers b s
  | bmRelease b i => exact execBmRelease_answers b i s
  | bmTest b i => exact execBmTest_answers b i s
  | bmReadWord b k => exact execBmReadWord_answers b k s
  | synth q => exact execSynth_answers q s
  | slotRead c => exact execSlotRead_answers c s
  | slotWrite c dir alloc cben => exact execSlotWrite_answers c dir alloc cben s
  | slotTas c => exact execSlotTas_answers c s
  | slotClear c => exact execSlotClear_answers c s
  | ienSet i => exact execIenSet_answers i s
  | ienClr i => exact execIenClr_answers i s
  | ienRead h => exact execIenRead_answers h s
  | cfgRead sel => exact execCfgRead_answers sel s
  | dispRead => exact execDispRead_answers s

theorem port_answers (r : Request) (s : State) : Answers (port r s) (KeepsEnvironment s) := by
  obtain ⟨i, -, e⟩ | ⟨-, e⟩ := port_cases r s
  · exact e ▸ exec_answers i s
  · simp [e]

/-! ### The host, the dispatcher, the steps of the system -/

/-- A step of a procedure completes; an engine operation may change the engine, nothing changes the host's own fields. -/
theorem perform_answers (op : HostOp) (s : State) : Answers (perform op s) (KeepsHost s) := by
  cases op with
  | command i =>
    refine (port_answers (encode i) s).mono fun t ht => ?_
    obtain ⟨hcfg, -, -, -, hhost, hresult, -, hagenda⟩ := ht
    exact ⟨hcfg, hhost, hresult, hagenda⟩
  | engine e =>
    obtain ⟨-, -, -, -, -, h⟩ := engineOp_keeps e s
    exact (answers_next _ _).2 h

theorem hostStep_answers (s : State) : Answers (hostStep s) fun t => t.cfg = s.cfg := by
  obtain ⟨-, h, r, e⟩ | ⟨op, -, hop⟩ := hostStep_cases s
  · exact ⟨_, e, rfl⟩
  · obtain ⟨t, et, hcfg, -⟩ := perform_answers op s
    obtain ⟨h, r, e⟩ := hop t et
    exact ⟨_, e, hcfg⟩

theorem callProcedure_answers (p : Procedure) (s : State) : Answers (callProcedure p s) fun t => t.cfg = s.cfg := by
  unfold callProcedure
  split
  · obtain ⟨h, r, e⟩ := settleHost_eq { proc := p, replies := [] } s
    simp [e]
  · exact hostStep_answers { s with agenda := .call p :: s.agenda }

@[simp] theorem handleCode_cfg (i : Nat) (l : LiveCounts) (s : State) : (handleCode i l s).cfg = s.cfg := by
  unfold handleCode
  split <;> simp

@[simp] theorem acknowledge_cfg (i : Nat) (s : State) : (acknowledge i s).cfg = s.cfg := rfl

@[simp] theorem dBitWith_cfg (i : Nat) (l : LiveCounts) (s : State) : (dBitWith i l s).cfg = s.cfg := by
  unfold dBitWith
  split <;> simp

@[simp] theorem dBit_cfg (s : State) : (dBit s).cfg = s.cfg := by
  unfold dBit
  split <;> simp

@[simp] theorem dispatcherStep_cfg (s : State) : (dispatcherStep s).cfg = s.cfg := by
  unfold dispatcherStep
  split
  · split
    · rfl
    · rfl
  · split
    · rfl
    · exact dBit_cfg s

/-- Every move completes and leaves the parameters; a reset keeps them too (70_reset_and_hazards.md R130). -/
theorem runMove_answers (m : Move) (s : State) : Answers (runMove m s) fun t => t.cfg = s.cfg := by
  cases m with
  | command r => exact (port_answers r s).mono fun _ ht => ht.1
  | engine op => exact (perform_answers (.engine op) s).mono fun _ ht => ht.1
  | call p => exact callProcedure_answers p s
  | host => exact hostStep_answers s
  | dispatcher => simp [runMove]
  | complete i => exact ⟨_, rfl, rfl⟩
  | reset => exact ⟨_, rfl, rfl⟩

theorem runQuiet_answers (s : State) : Answers (runQuiet s) fun t => t.cfg = s.cfg := by
  unfold runQuiet
  split
  · simp
  · exact hostStep_answers s

theorem runAgenda_answers (s : State) : Answers (runAgenda s) fun t => t.cfg = s.cfg := by
  unfold runAgenda
  split
  · exact runQuiet_answers s
  · exact runMove_answers _ _

theorem step_of_valid {s : State} (h : s.cfg.Valid) : step s = runAgenda s := if_pos h

theorem step_of_not_valid {s : State} (h : ¬ s.cfg.Valid) : step s = .refused .badConfiguration := if_neg h

/-- A step that answers is one of a valid parameter set. -/
theorem valid_of_step_next {s t : State} (h : step s = .next t) : s.cfg.Valid := by
  by_contra hv
  rw [step_of_not_valid hv] at h
  cases h

/-! ## The scope's obligations (00_scope.md R1) -/

/-- Settles O50: a step that answers runs the agenda, and every agent's move keeps the parameters. -/
theorem parametersNeverChange : Obligations.ParametersNeverChange := by
  intro s t h
  obtain ⟨u, hu, hcfg⟩ := runAgenda_answers s
  rw [step_of_valid (valid_of_step_next h), hu] at h
  cases h
  exact hcfg

/-- Settles O46: `step` tests the parameters before anything else. -/
theorem badConfigurationIsRefused : Obligations.BadConfigurationIsRefused :=
  fun _ h => step_of_not_valid h

end Sys2Proof.Machine

namespace Sys2Proof.Machine

/-! ## What a command writes, and what every move but the dispatcher's and reset keeps

Two facts carry the obligations on the block's state. A command is a composition of the updates that the access table of
10_state.md R22 names for it (`CommandWrites`). And every move of the host and the engine keeps one preorder on states
(`KeepsScan`), in which `DSTATE`, `SNAP` and the sizes are fixed and `GS` and `EVT` only grow. -/

theorem Answers.of_next {r : Result} {P : State → Prop} {t : State} (h : Answers r P) (e : r = .next t) : P t := by
  subst e
  exact (answers_next t P).1 h

/-! ### The updates of a command -/

/-- `t` is reached from `s` by updates that the access table allows to operation `op` (10_state.md R22). -/
inductive CommandWrites (s : State) (op : Op) : State → Prop where
  | nothing : CommandWrites s op s
  | respond {t : State} {st : Status} {r : Words8} (h : CommandWrites s op t) : CommandWrites s op (t.respond st r)
  | emit {t : State} {e : Event} (hop : op ∈ [.bmAllocRange, .bmClaim, .synth]) (h : CommandWrites s op t) :
      CommandWrites s op (t.emit e)
  | setBm {t : State} {b : Bitmap} {l : List Bool}
      (hop : op ∈ [.bmAllocRange, .bmClaim, .bmAcquire, .bmAcquireAny, .bmRelease]) (hl : l.length = (t.bm b).length)
      (h : CommandWrites s op t) : CommandWrites s op (t.setBm b l)
  | setSlot {t : State} {c : Nat} {v : ChannelSlot} (hop : op ∈ [.slotWrite, .slotTas, .slotClear])
      (h : CommandWrites s op t) : CommandWrites s op (t.setSlot c v)
  | enable {t : State} {i : Nat} (hop : op = .ienSet) (h : CommandWrites s op t) :
      CommandWrites s op { t with ien := maskSet t.ien i, gs := gsOnEnable t.gs t.cv i }
  | disable {t : State} {i : Nat} (hop : op = .ienClr) (h : CommandWrites s op t) :
      CommandWrites s op { t with ien := maskClear t.ien i }

namespace CommandWrites

variable {s t : State} {op : Op}

theorem ok {r : Words8} (h : CommandWrites s op t) : Answers (Machine.ok r t) (CommandWrites s op) :=
  (answers_ok r t _).2 h.respond

theorem fail {st : Status} (h : CommandWrites s op t) : Answers (Machine.fail st t) (CommandWrites s op) :=
  (answers_fail st t _).2 h.respond

theorem setBit {b : Bitmap} {i : Nat} {v : Bool}
    (hop : op ∈ [.bmAllocRange, .bmClaim, .bmAcquire, .bmAcquireAny, .bmRelease]) (h : CommandWrites s op t) :
    CommandWrites s op (t.setBit b i v) :=
  h.setBm hop List.length_set

theorem setRange {b : Bitmap} {first last : Nat}
    (hop : op ∈ [.bmAllocRange, .bmClaim, .bmAcquire, .bmAcquireAny, .bmRelease]) (h : CommandWrites s op t) :
    CommandWrites s op (t.setRange b first last) :=
  h.setBm hop (length_setRangeFrom first last 0 (t.bm b))

theorem setTargets {ts : List Bitmap} {first last : Nat} (h : CommandWrites s .bmClaim t) :
    CommandWrites s .bmClaim (Machine.setTargets ts first last t) := by
  induction ts generalizing t with
  | nil => exact h
  | cons b ts ih => exact ih (h.setRange (by decide))

theorem warnTargets {ts : List Bitmap} {first last : Word} (h : CommandWrites s .bmClaim t) :
    CommandWrites s .bmClaim (Machine.warnTargets ts first last t) := by
  induction ts generalizing t with
  | nil => exact h
  | cons b ts ih => exact ih (h.emit (by decide))

theorem warnBlocks {n : Half} (h : CommandWrites s .synth t) : CommandWrites s .synth (Machine.warnBlocks n t) := by
  unfold Machine.warnBlocks
  split
  · exact h.emit (by decide)
  · exact h

end CommandWrites

/-! ### Each command's updates -/

theorem execBmAllocRange_writes (b : BmSel) (first last : Word) (s : State) :
    Answers (execBmAllocRange b first last s) (CommandWrites s .bmAllocRange) := by
  have warned : Answers (fail .rangeRejected (s.emit (.rangeRejected b first last))) (CommandWrites s .bmAllocRange) :=
    (CommandWrites.nothing.emit (by decide)).fail
  unfold execBmAllocRange
  split
  · exact warned
  · split
    · exact warned
    · exact (CommandWrites.nothing.setRange (by decide)).ok

theorem execBmClaim_writes (k : ClaimKind) (first last : Word) (s : State) :
    Answers (execBmClaim k first last s) (CommandWrites s .bmClaim) := by
  unfold execBmClaim
  split
  · exact CommandWrites.nothing.fail
  · split
    · exact CommandWrites.nothing.fail
    · split
      · split
        · exact CommandWrites.nothing.fail
        · exact CommandWrites.nothing.warnTargets.ok
      · exact CommandWrites.nothing.setTargets.ok

theorem execBmAcquire_writes (b : BmSel) (i : Word) (s : State) :
    Answers (execBmAcquire b i s) (CommandWrites s .bmAcquire) := by
  unfold execBmAcquire
  split
  · exact CommandWrites.nothing.fail
  · split
    · exact CommandWrites.nothing.fail
    · split
      · exact CommandWrites.nothing.fail
      · exact (CommandWrites.nothing.setBit (by decide)).ok

theorem execBmAcquireAny_writes (b : BmSel) (s : State) :
    Answers (execBmAcquireAny b s) (CommandWrites s .bmAcquireAny) := by
  unfold execBmAcquireAny
  split
  · exact CommandWrites.nothing.fail
  · split
    · exact CommandWrites.nothing.fail
    · exact (CommandWrites.nothing.setBit (by decide)).ok

theorem execBmRelease_writes (b : BmSel) (i : Word) (s : State) :
    Answers (execBmRelease b i s) (CommandWrites s .bmRelease) := by
  unfold execBmRelease
  split
  · exact CommandWrites.nothing.fail
  · split
    · exact CommandWrites.nothing.fail
    · split
      · exact (CommandWrites.nothing.setBit (by decide)).ok
      · exact CommandWrites.nothing.fail

theorem execBmTest_writes (b : BmSel) (i : Word) (s : State) :
    Answers (execBmTest b i s) (CommandWrites s .bmTest) := by
  unfold execBmTest
  split
  · exact CommandWrites.nothing.fail
  · split
    · exact CommandWrites.nothing.fail
    · exact CommandWrites.nothing.ok

theorem execBmReadWord_writes (b : BmSel) (k : Word) (s : State) :
    Answers (execBmReadWord b k s) (CommandWrites s .bmReadWord) := by
  unfold execBmReadWord
  split
  · exact CommandWrites.nothing.fail
  · split
    · exact CommandWrites.nothing.fail
    · exact CommandWrites.nothing.ok

theorem execSynth_writes (q : SynthRequest) (s : State) : Answers (execSynth q s) (CommandWrites s .synth) := by
  unfold execSynth
  split
  · exact CommandWrites.nothing.warnBlocks.fail
  · exact CommandWrites.nothing.warnBlocks.ok

theorem execSlotRead_writes (c : Word) (s : State) : Answers (execSlotRead c s) (CommandWrites s .slotRead) := by
  unfold execSlotRead
  split
  · exact CommandWrites.nothing.fail
  · exact CommandWrites.nothing.ok

theorem execSlotWrite_writes (c : Word) (dir : Direction) (alloc cben : Bool) (s : State) :
    Answers (execSlotWrite c dir alloc cben s) (CommandWrites s .slotWrite) := by
  unfold execSlotWrite
  split
  · exact CommandWrites.nothing.fail
  · exact (CommandWrites.nothing.setSlot (by decide)).ok

theorem execSlotTas_writes (c : Word) (s : State) : Answers (execSlotTas c s) (CommandWrites s .slotTas) := by
  unfold execSlotTas
  split
  · exact CommandWrites.nothing.fail
  · exact (CommandWrites.nothing.setSlot (by decide)).ok

theorem execSlotClear_writes (c : Word) (s : State) : Answers (execSlotClear c s) (CommandWrites s .slotClear) := by
  unfold execSlotClear
  split
  · exact CommandWrites.nothing.fail
  · exact (CommandWrites.nothing.setSlot (by decide)).ok

theorem execIenSet_writes (i : Word) (s : State) : Answers (execIenSet i s) (CommandWrites s .ienSet) := by
  unfold execIenSet
  split
  · exact CommandWrites.nothing.fail
  · exact (CommandWrites.nothing.enable rfl).ok

theorem execIenClr_writes (i : Word) (s : State) : Answers (execIenClr i s) (CommandWrites s .ienClr) := by
  unfold execIenClr
  split
  · exact CommandWrites.nothing.fail
  · exact (CommandWrites.nothing.disable rfl).ok

theorem execIenRead_writes (h : MaskHalf) (s : State) : Answers (execIenRead h s) (CommandWrites s .ienRead) := by
  cases h with
  | lo => exact CommandWrites.nothing.ok
  | hi => exact CommandWrites.nothing.ok

theorem execCfgRead_writes (sel : Word) (s : State) : Answers (execCfgRead sel s) (CommandWrites s .cfgRead) := by
  unfold execCfgRead
  split
  · exact CommandWrites.nothing.fail
  · exact CommandWrites.nothing.ok

/-- Every command is a composition of the updates that the access table allows it. -/
theorem exec_writes (i : Instr) (s : State) : Answers (exec i s) (CommandWrites s i.op) := by
  cases i with
  | bmAllocRange b first last => exact execBmAllocRange_writes b first last s
  | bmClaim k first last => exact execBmClaim_writes k first last s
  | bmAcquire b i => exact execBmAcquire_writes b i s
  | bmAcquireAny b => exact execBmAcquireAny_writes b s
  | bmRelease b i => exact execBmRelease_writes b i s
  | bmTest b i => exact execBmTest_writes b i s
  | bmReadWord b k => exact execBmReadWord_writes b k s
  | synth q => exact execSynth_writes q s
  | slotRead c => exact execSlotRead_writes c s
  | slotWrite c dir alloc cben => exact execSlotWrite_writes c dir alloc cben s
  | slotTas c => exact execSlotTas_writes c s
  | slotClear c => exact execSlotClear_writes c s
  | ienSet i => exact execIenSet_writes i s
  | ienClr i => exact execIenClr_writes i s
  | ienRead h => exact execIenRead_writes h s
  | cfgRead sel => exact execCfgRead_writes sel s
  | dispRead => exact CommandWrites.nothing.ok

/-! ### What an operation that the table does not name leaves alone -/

namespace CommandWrites

variable {s t : State} {op : Op}

theorem keepsBitmaps (h : CommandWrites s op t)
    (hop : op ∉ [.bmAllocRange, .bmClaim, .bmAcquire, .bmAcquireAny, .bmRelease]) : KeepsBitmaps s t := by
  induction h with
  | nothing => exact ⟨rfl, rfl, rfl⟩
  | setBm hmem _ _ _ => exact absurd hmem hop
  | respond _ ih | emit _ _ ih | setSlot _ _ ih | enable _ _ ih | disable _ _ ih => exact ih

theorem keepsSlots (h : CommandWrites s op t) (hop : op ∉ [.slotWrite, .slotTas, .slotClear]) : KeepsSlots s t := by
  induction h with
  | nothing => rfl
  | setSlot hmem _ _ => exact absurd hmem hop
  | setBm _ _ _ ih => exact (State.setBm_chs ..).trans ih
  | respond _ ih | emit _ _ ih | enable _ _ ih | disable _ _ ih => exact ih

theorem ien_eq (h : CommandWrites s op t) (hop : op ∉ [.ienSet, .ienClr]) : t.ien = s.ien := by
  induction h with
  | nothing => rfl
  | enable hset _ _ => simp [hset] at hop
  | disable hclr _ _ => simp [hclr] at hop
  | setBm _ _ _ ih => exact (State.setBm_ien ..).trans ih
  | respond _ ih | emit _ _ ih | setSlot _ _ ih => exact ih

theorem gs_eq (h : CommandWrites s op t) (hop : op ≠ .ienSet) : t.gs = s.gs := by
  induction h with
  | nothing => rfl
  | enable hset _ _ => exact absurd hset hop
  | setBm _ _ _ ih => exact (State.setBm_gs ..).trans ih
  | respond _ ih | emit _ _ ih | setSlot _ _ ih | disable _ _ ih => exact ih

theorem keepsEvents (h : CommandWrites s op t) (hop : op ∉ [.bmAllocRange, .bmClaim, .synth]) : KeepsEvents s t := by
  induction h with
  | nothing => rfl
  | emit hmem _ _ => exact absurd hmem hop
  | setBm _ _ _ ih => exact (State.setBm_evt ..).trans ih
  | respond _ ih | setSlot _ _ ih | enable _ _ ih | disable _ _ ih => exact ih

end CommandWrites

/-! ### The preorder of the host's and the engine's moves -/

/-- What every move but the dispatcher's and reset keeps: the parameters and sizes and the scan state are fixed, `GS` is not
cleared, events are only appended, and an enabled completion that becomes pending raises `GS`. -/
structure KeepsScan (s t : State) : Prop where
  cfg : t.cfg = s.cfg
  bm_length : ∀ b : Bitmap, (t.bm b).length = (s.bm b).length
  chs_length : t.chs.length = s.chs.length
  dstate : t.dstate = s.dstate
  snap : t.snap = s.snap
  gs : s.gs = true → t.gs = true
  evt : s.evt <+: t.evt
  enabled : t.cv &&& t.ien ≠ 0 → s.cv &&& s.ien ≠ 0 ∨ t.gs = true
  descriptors : descriptorsWf s.engine.descriptors = true → descriptorsWf t.engine.descriptors = true

theorem and_ne_zero_of_maskClear {m n : CodeMask} {i : Nat} (h : maskClear m i &&& n ≠ 0) : m &&& n ≠ 0 := by
  obtain ⟨j, hm, hn⟩ := (and_ne_zero_iff _ _).1 h
  rw [getLsbD_maskClear, Bool.and_eq_true] at hm
  exact (and_ne_zero_iff _ _).2 ⟨j, hm.1, hn⟩

theorem and_ne_zero_of_maskSet {m n : CodeMask} {i : Nat} (h : maskSet m i &&& n ≠ 0) :
    m &&& n ≠ 0 ∨ n.getLsbD i = true := by
  obtain ⟨j, hm, hn⟩ := (and_ne_zero_iff _ _).1 h
  rw [getLsbD_maskSet m i j (BitVec.lt_of_getLsbD hn), Bool.or_eq_true, decide_eq_true_eq] at hm
  rcases hm with hm | rfl
  · exact .inl ((and_ne_zero_iff _ _).2 ⟨j, hm, hn⟩)
  · exact .inr hn

theorem length_bm_of_keepsBitmaps {s t : State} (h : KeepsBitmaps s t) (b : Bitmap) :
    (t.bm b).length = (s.bm b).length := by
  obtain ⟨hchan, hcc, hslot⟩ := h
  cases b with
  | chan => exact congrArg List.length hchan
  | cc => exact congrArg List.length hcc
  | slot => exact congrArg List.length hslot

namespace KeepsScan

variable {s t u : State}

theorem refl (s : State) : KeepsScan s s :=
  ⟨rfl, fun _ => rfl, rfl, rfl, rfl, id, List.prefix_rfl, .inl, id⟩

theorem trans (h₁ : KeepsScan s t) (h₂ : KeepsScan t u) : KeepsScan s u where
  cfg := h₂.cfg.trans h₁.cfg
  bm_length b := (h₂.bm_length b).trans (h₁.bm_length b)
  chs_length := h₂.chs_length.trans h₁.chs_length
  dstate := h₂.dstate.trans h₁.dstate
  snap := h₂.snap.trans h₁.snap
  gs := h₂.gs ∘ h₁.gs
  evt := h₁.evt.trans h₂.evt
  enabled hu := (h₂.enabled hu).elim (fun ht => (h₁.enabled ht).imp_right h₂.gs) .inr
  descriptors := h₂.descriptors ∘ h₁.descriptors

/-- The response, what the host knows, the draws and the agenda do not count. -/
theorem bookkeeping (s : State) {resp : Response} {v : EngineReply} {h : Option HostRun} {r : Option ProcResult} {n : Nat}
    {a : List Move} :
    KeepsScan s { s with resp := resp, engReply := v, host := h, result := r, draws := n, agenda := a } where
  __ := refl s
  bm_length := length_bm_of_keepsBitmaps ⟨rfl, rfl, rfl⟩

theorem emit (s : State) (e : Event) : KeepsScan s (s.emit e) where
  __ := refl s
  bm_length b := by rw [bm_emit]
  evt := List.prefix_append _ _

theorem setBm (s : State) (b : Bitmap) (l : List Bool) (hl : l.length = (s.bm b).length) : KeepsScan s (s.setBm b l) where
  cfg := State.setBm_cfg ..
  bm_length b' := by
    rw [bm_setBm]
    split
    · next hb => rw [hl, hb]
    · rfl
  chs_length := by rw [State.setBm_chs]
  dstate := State.setBm_dstate ..
  snap := State.setBm_snap ..
  gs h := by rwa [State.setBm_gs]
  evt := by rw [State.setBm_evt]
  enabled h := .inl (by rwa [State.setBm_cv, State.setBm_ien] at h)
  descriptors h := by rwa [State.setBm_engine]

theorem setSlot (s : State) (c : Nat) (v : ChannelSlot) : KeepsScan s (s.setSlot c v) where
  __ := refl s
  bm_length b := by rw [bm_setSlot]
  chs_length := List.length_set

/-- IEN_SET: "raises `GS` if its completion bit is already set" (42_dispatcher.md R78). -/
theorem enable (s : State) (i : Nat) :
    KeepsScan s { s with ien := maskSet s.ien i, gs := gsOnEnable s.gs s.cv i } where
  __ := refl s
  bm_length := length_bm_of_keepsBitmaps ⟨rfl, rfl, rfl⟩
  gs h := by simp [gsOnEnable, h]
  enabled h := by
    rw [BitVec.and_comm] at h
    refine (and_ne_zero_of_maskSet h).imp (fun h' => ?_) (fun hcv => ?_)
    · rwa [BitVec.and_comm]
    · simp [gsOnEnable, hcv]

theorem disable (s : State) (i : Nat) : KeepsScan s { s with ien := maskClear s.ien i } where
  __ := refl s
  bm_length := length_bm_of_keepsBitmaps ⟨rfl, rfl, rfl⟩
  enabled h := by
    rw [BitVec.and_comm] at h
    rw [BitVec.and_comm s.cv]
    exact .inl (and_ne_zero_of_maskClear h)

/-- E_COMPLETE: raises `GS` if the code is enabled (42_dispatcher.md R81). -/
theorem complete (s : State) (i : Code) : KeepsScan s (eComplete i s) where
  __ := refl s
  bm_length := length_bm_of_keepsBitmaps ⟨rfl, rfl, rfl⟩
  gs h := by simp [eComplete, gsOnComplete, h]
  enabled h := (and_ne_zero_of_maskSet h).imp_right fun hien => Bool.or_eq_true_iff.2 (.inr hien)

end KeepsScan

theorem CommandWrites.keepsScan {s t : State} {op : Op} (h : CommandWrites s op t) : KeepsScan s t := by
  induction h with
  | nothing => exact .refl s
  | respond _ ih => exact ih.trans (.bookkeeping _)
  | emit _ _ ih => exact ih.trans (.emit _ _)
  | setBm _ hl _ ih => exact ih.trans (.setBm _ _ _ hl)
  | setSlot _ _ ih => exact ih.trans (.setSlot _ _ _)
  | enable _ _ ih => exact ih.trans (.enable _ _)
  | disable _ _ ih => exact ih.trans (.disable _ _)

theorem exec_keepsScan (i : Instr) (s : State) : Answers (exec i s) (KeepsScan s) :=
  (exec_writes i s).mono fun _ h => h.keepsScan

/-! ### Engine operations -/

/-- Of an engine operation the block sees at most one cleared bit of `CV` (44_host_lifecycle.md R100). -/
theorem engineOp_cv (op : EngineOp) (s : State) :
    (engineOp op s).cv = s.cv ∨ ∃ i, (engineOp op s).cv = maskClear s.cv i := by
  cases op with
  | clearPending c => exact .inr ⟨c.val, rfl⟩
  | mappedSlot c =>
    simp only [engineOp]
    split
    · exact .inl rfl
    · exact .inl rfl
  | _ => exact .inl rfl

theorem engineOp_descriptors (op : EngineOp) (s : State) (h : descriptorsWf s.engine.descriptors = true) :
    descriptorsWf (engineOp op s).engine.descriptors = true := by
  cases op with
  | program slot d => exact descriptorsWf_putDescriptor _ d _ h
  | mappedSlot c =>
    simp only [engineOp]
    split
    · exact h
    · exact h
  | _ => exact h

theorem engineOp_keepsScan (op : EngineOp) (s : State) : KeepsScan s (engineOp op s) := by
  obtain ⟨hbm, hchs, ⟨hien, hgs, hdstate, hsnap⟩, hevt, -, hcfg, -⟩ := engineOp_keeps op s
  exact
    { cfg := hcfg
      bm_length := length_bm_of_keepsBitmaps hbm
      chs_length := congrArg List.length hchs
      dstate := hdstate
      snap := hsnap
      gs := hgs.trans
      evt := ⟨[], (List.append_nil _).trans (Eq.symm hevt)⟩
      enabled := fun h => by
        rw [hien] at h
        obtain e | ⟨i, e⟩ := engineOp_cv op s
        · exact .inl (e ▸ h)
        · exact .inl (and_ne_zero_of_maskClear (e ▸ h))
      descriptors := engineOp_descriptors op s }

/-! ### The host's steps and the moves -/

theorem port_keepsScan (r : Request) (s : State) : Answers (port r s) (KeepsScan s) := by
  obtain ⟨i, -, e⟩ | ⟨-, e⟩ := port_cases r s
  · exact e ▸ exec_keepsScan i s
  · exact ⟨_, e, .bookkeeping s⟩

theorem perform_keepsScan (op : HostOp) (s : State) : Answers (perform op s) (KeepsScan s) := by
  cases op with
  | command i => exact port_keepsScan (encode i) s
  | engine e => exact ⟨_, rfl, engineOp_keepsScan e s⟩

theorem hostStep_keepsScan (s : State) : Answers (hostStep s) (KeepsScan s) := by
  obtain ⟨-, h, r, e⟩ | ⟨op, -, hop⟩ := hostStep_cases s
  · exact ⟨_, e, .bookkeeping s⟩
  · obtain ⟨t, et, ht⟩ := perform_keepsScan op s
    obtain ⟨h, r, e⟩ := hop t et
    exact ⟨_, e, ht.trans (.bookkeeping t)⟩

theorem callProcedure_keepsScan (p : Procedure) (s : State) : Answers (callProcedure p s) (KeepsScan s) := by
  unfold callProcedure
  split
  · obtain ⟨h, r, e⟩ := settleHost_eq { proc := p, replies := [] } s
    exact ⟨_, rfl, e ▸ .bookkeeping s⟩
  · exact (hostStep_keepsScan _).mono fun _ ht => (KeepsScan.bookkeeping s).trans ht

/-- Only the dispatcher and reset touch the scan state, clear `GS` or take events away (10_state.md R14, R15, R16). -/
theorem runMove_keepsScan {m : Move} (hd : m ≠ .dispatcher) (hr : m ≠ .reset) (s : State) :
    Answers (runMove m s) (KeepsScan s) := by
  cases m with
  | command r => exact port_keepsScan r s
  | engine op => exact ⟨_, rfl, engineOp_keepsScan op s⟩
  | call p => exact callProcedure_keepsScan p s
  | host => exact hostStep_keepsScan s
  | dispatcher => exact absurd rfl hd
  | complete i => exact ⟨_, rfl, .complete s i⟩
  | reset => exact absurd rfl hr

/-- A pushed move that answers is that move's own answer. -/
theorem runMove_of_step_push {s t : State} {m : Move} (h : step (s.push m) = .next t) : runMove m s = .next t :=
  (step_push s m (State.push_cfg s m ▸ valid_of_step_next h)).symm.trans h

/-! ### The dispatcher's step -/

/-- D_BIT clears a bit of `CV` and of `SNAP`, may draw and may emit one event; nothing else (42_dispatcher.md R84). -/
theorem dBitWith_eq (i : Nat) (l : LiveCounts) (s : State) :
    ∃ es n, dBitWith i l s =
      { s with cv := maskClear s.cv i, snap := maskClear s.snap i, evt := s.evt ++ es, draws := n } := by
  unfold dBitWith
  split
  · exact ⟨_, s.draws, rfl⟩
  · unfold handleCode
    split
    · exact ⟨_, s.draws + 1, rfl⟩
    · exact ⟨[], s.draws + 1, by simp [acknowledge, State.drawn]⟩

/-- The four things a dispatcher's step can be: nothing, D_ENTRY, D_EXIT, D_BIT (42_dispatcher.md R82, R84, R85). -/
theorem dispatcherStep_cases (s : State) :
    (s.dstate = .idle ∧ s.gs = false ∧ dispatcherStep s = s) ∨
    (s.dstate = .idle ∧ s.gs = true ∧ dispatcherStep s = dEntry s) ∨
    (s.dstate = .scanning ∧ s.snap = 0 ∧ dispatcherStep s = dExit s) ∨
    (s.dstate = .scanning ∧ s.snap ≠ 0 ∧
      ∃ cv snap es n, dispatcherStep s = { s with cv := cv, snap := snap, evt := s.evt ++ es, draws := n }) := by
  unfold dispatcherStep
  split
  · next hd =>
    cases hg : s.gs with
    | false => exact .inl ⟨hd, rfl, rfl⟩
    | true => exact .inr (.inl ⟨hd, rfl, rfl⟩)
  · next hd =>
    split
    · next hs => exact .inr (.inr (.inl ⟨hd, hs, rfl⟩))
    · next hs =>
      refine .inr (.inr (.inr ⟨hd, hs, ?_⟩))
      unfold dBit
      split
      · next hn => exact absurd ((lowestSet_eq_none _).1 hn) hs
      · next i _ =>
        obtain ⟨es, n, e⟩ := dBitWith_eq i (s.live (Fin.ofNat 64 i)) s
        exact ⟨_, _, es, n, e⟩

/-- The dispatcher only appends events. -/
theorem dispatcherStep_evt_prefix (s : State) : s.evt <+: (dispatcherStep s).evt := by
  obtain ⟨-, -, e⟩ | ⟨-, -, e⟩ | ⟨-, -, e⟩ | ⟨-, -, cv, snap, es, n, e⟩ := dispatcherStep_cases s <;> rw [e]
  · exact List.prefix_rfl
  · exact List.prefix_rfl
  · exact List.prefix_append s.evt es

/-- `GS` is re-evaluated at D_EXIT: it is cleared only with no enabled code pending (42_dispatcher.md R85). -/
theorem dispatcherStep_clears_gs {s : State} (hs : s.gs = true) (ht : (dispatcherStep s).gs = false) :
    s.dstate = .scanning ∧ s.snap = 0 ∧ s.cv &&& s.ien = 0 := by
  obtain ⟨-, -, e⟩ | ⟨-, -, e⟩ | ⟨hd, hsnap, e⟩ | ⟨-, -, cv, snap, es, n, e⟩ := dispatcherStep_cases s <;> rw [e] at ht
  · exact absurd (hs.symm.trans ht) (by decide)
  · exact absurd (hs.symm.trans ht) (by decide)
  · exact ⟨hd, hsnap, by simpa [dExit, gsReevaluated] using ht⟩
  · exact absurd (hs.symm.trans ht) (by decide)

/-! ### The invariant, agent by agent -/

namespace State.Inv

variable {s t : State}

theorem of_keepsScan (hs : s.Inv) (h : KeepsScan s t) : t.Inv where
  cfg_valid := by
    rw [h.cfg]
    exact hs.cfg_valid
  bm_length b := by rw [h.bm_length, hs.bm_length, h.cfg]
  chs_length := by rw [h.chs_length, hs.chs_length, h.cfg]
  snap_idle hd := h.snap.trans (hs.snap_idle (h.dstate.symm.trans hd))
  gs_scanning hd := h.gs (hs.gs_scanning (h.dstate.symm.trans hd))
  gs_enabled ht := (h.enabled ht).elim (fun h' => h.gs (hs.gs_enabled h')) id
  descriptors_wf := h.descriptors hs.descriptors_wf

theorem dEntry (hs : s.Inv) (hgs : s.gs = true) : (Machine.dEntry s).Inv where
  __ := hs
  bm_length b := (length_bm_of_keepsBitmaps ⟨rfl, rfl, rfl⟩ b).trans (hs.bm_length b)
  snap_idle hd := nomatch hd
  gs_scanning _ := hgs

theorem dExit (hs : s.Inv) (hsnap : s.snap = 0) : (Machine.dExit s).Inv where
  __ := hs
  bm_length b := (length_bm_of_keepsBitmaps ⟨rfl, rfl, rfl⟩ b).trans (hs.bm_length b)
  snap_idle _ := hsnap
  gs_scanning hd := nomatch hd
  gs_enabled h := decide_eq_true h

/-- While scanning `GS = 1`, whatever `CV` becomes: D_BIT may change `CV` and `SNAP`. -/
theorem dBit (hs : s.Inv) (hd : s.dstate = .scanning) (cv snap : CodeMask) (evs : List Event) (n : Nat) :
    { s with cv := cv, snap := snap, evt := evs, draws := n }.Inv where
  __ := hs
  bm_length b := (length_bm_of_keepsBitmaps ⟨rfl, rfl, rfl⟩ b).trans (hs.bm_length b)
  snap_idle hi := absurd (hd.symm.trans hi) (by decide)
  gs_enabled _ := hs.gs_scanning hd

theorem dispatcherStep (hs : s.Inv) : (Machine.dispatcherStep s).Inv := by
  obtain ⟨-, -, e⟩ | ⟨-, hgs, e⟩ | ⟨-, hsnap, e⟩ | ⟨hd, -, cv, snap, es, n, e⟩ := dispatcherStep_cases s <;> rw [e]
  · exact hs
  · exact hs.dEntry hgs
  · exact hs.dExit hsnap
  · exact hs.dBit hd cv snap _ n

/-- After power-on nothing is enabled, so nothing enabled is pending, whatever `CV` was drawn. -/
theorem powerOn {p : Params} (hp : p.Valid) (cv : CodeMask) {e : Engine} (he : descriptorsWf e.descriptors = true) :
    (State.powerOn p cv e).Inv where
  cfg_valid := hp
  bm_length b := by cases b <;> exact List.length_replicate
  chs_length := List.length_replicate
  snap_idle _ := rfl
  gs_scanning hd := nomatch hd
  gs_enabled h := absurd BitVec.and_zero h
  descriptors_wf := he

theorem resetBlock (hs : s.Inv) : (Machine.resetBlock s).Inv :=
  (powerOn hs.cfg_valid s.cv hs.descriptors_wf).of_keepsScan (.bookkeeping _)

theorem runMove (hs : s.Inv) (m : Move) : Answers (Machine.runMove m s) State.Inv := by
  by_cases hd : m = .dispatcher
  · subst hd
    exact ⟨_, rfl, hs.dispatcherStep⟩
  · by_cases hr : m = .reset
    · subst hr
      exact ⟨_, rfl, hs.resetBlock⟩
    · exact (runMove_keepsScan hd hr s).mono fun _ => hs.of_keepsScan

theorem runQuiet (hs : s.Inv) : Answers (Machine.runQuiet s) State.Inv := by
  unfold Machine.runQuiet
  split
  · exact ⟨_, rfl, hs.dispatcherStep⟩
  · exact (hostStep_keepsScan s).mono fun _ => hs.of_keepsScan

theorem runAgenda (hs : s.Inv) : Answers (Machine.runAgenda s) State.Inv := by
  unfold Machine.runAgenda
  split
  · exact hs.runQuiet
  · exact (hs.of_keepsScan (.bookkeeping s)).runMove _

end State.Inv

/-! ## The state's obligations (10_state.md) -/

/-- Settles O42: the host's and the engine's moves keep it by `KeepsScan`, the dispatcher's step by its four cases, a reset
because it is a power-on. -/
theorem stepKeepsTheInvariant : Obligations.StepKeepsTheInvariant := by
  intro s t hs h
  rw [step_of_valid hs.cfg_valid] at h
  exact hs.runAgenda.of_next h

/-- Settles O32: each command is a composition of the updates that the access table allows it. -/
theorem commandsWriteOnlyWhatTheAccessTableAllows : Obligations.CommandsWriteOnlyWhatTheAccessTableAllows := by
  intro s t i h
  have hw := (exec_writes i s).of_next h
  have hk := hw.keepsScan
  exact ⟨hw.keepsBitmaps, hw.keepsSlots, hw.ien_eq, hw.gs_eq, hk.gs, hk.dstate, hk.snap, hw.keepsEvents, hk.evt,
    (exec_answers i s).of_next h⟩

/-- Settles O38: `KeepsScan` fixes `DSTATE` and `SNAP`. -/
theorem scanStateMovesOnlyWithTheDispatcher : Obligations.ScanStateMovesOnlyWithTheDispatcher := by
  intro s t m hd hr h
  have hk := (runMove_keepsScan hd hr s).of_next (runMove_of_step_push h)
  exact ⟨hk.dstate, hk.snap⟩

/-- Settles O47: `KeepsScan` does not clear `GS`, and of the dispatcher's steps D_EXIT alone does. -/
theorem groupStatusIsClearedOnlyAtExit : Obligations.GroupStatusIsClearedOnlyAtExit := by
  intro s t m hs h ht
  have hm := runMove_of_step_push h
  by_cases hr : m = .reset
  · exact .inl hr
  by_cases hd : m = .dispatcher
  · subst hd
    cases hm
    exact .inr ⟨rfl, dispatcherStep_clears_gs hs ht⟩
  · have hgs := ((runMove_keepsScan hd hr s).of_next hm).gs hs
    exact absurd (hgs.symm.trans ht) (by decide)

/-- Settles O49: `KeepsScan` appends events only, and so does each of the dispatcher's steps. -/
theorem eventsOnlyGrow : Obligations.EventsOnlyGrow := by
  intro s t m hr h
  have hm := runMove_of_step_push h
  by_cases hd : m = .dispatcher
  · subst hd
    cases hm
    exact dispatcherStep_evt_prefix s
  · exact ((runMove_keepsScan hd hr s).of_next hm).evt

end Sys2Proof.Machine

namespace Sys2Proof

open Machine

/-! # Encoding (30_encoding.md)

The decoder is read once, as the three tests on the fields of the command word (`decode_eq_command_iff`). What an instruction
and the command it is assembled from say of each other, which argument bits `assemble` reads, and what `NamesNoCommand` says of
the fields then give the obligations. -/

/-! ## What the decoder accepts -/

/-- A request gives a command exactly when it passes the tests on `RSV`, `OPC` and `SEL` (R43, R44). -/
theorem decode_eq_command_iff {r : Request} {i : Instr} :
    decode r = .command i ↔
      rsvField r.cmd = 0 ∧ ∃ op, Op.ofOpc (opcField r.cmd) = some op ∧ op.selAllowed (selField r.cmd) = true ∧
        assemble op (selField r.cmd) r.args = i := by
  unfold decode
  by_cases hrsv : rsvField r.cmd = 0#22
  · cases hop : Op.ofOpc (opcField r.cmd) with
    | none => simp [hrsv]
    | some op => by_cases hsel : op.selAllowed (selField r.cmd) = true <;> simp [hrsv, hsel]
  · simp [hrsv]

/-! ## Instructions and the rows they are assembled from -/

/-- The table of select values (R38) and well-formedness say the same of an instruction. -/
@[simp] theorem selAllowed_op_sel (i : Instr) : i.op.selAllowed i.sel = i.wellFormed := by
  cases i with
  | bmAcquire b _ | bmAcquireAny b | bmRelease b _ | bmTest b _ | bmReadWord b _ => cases b <;> rfl
  | ienRead h => cases h <;> rfl
  | _ => rfl

/-- Assembling an instruction's own row, select value and argument words gives the instruction back (R45). -/
@[simp] theorem assemble_op_sel_args (i : Instr) : assemble i.op i.sel i.args = i := by
  cases i with
  | synth q => exact congrArg Instr.synth (synthRequestOf_synthArgs q)
  | slotWrite c dir alloc cben =>
    simp only [assemble, Instr.op, Instr.args, slotFieldsWord_dir, slotFieldsWord_alloc, slotFieldsWord_cben,
      Direction.ofBits_toBits]
  | _ => simp [assemble, Instr.op, Instr.sel, Instr.args]

@[simp] theorem op_assemble (op : Op) (sel : BitVec 2) (a : Words8) : (assemble op sel a).op = op := by
  cases op <;> rfl

/-- An allowed select value is kept: where the instruction has no place for it, 0 is the only one allowed. -/
theorem sel_assemble {op : Op} {sel : BitVec 2} (a : Words8) (h : op.selAllowed sel = true) :
    (assemble op sel a).sel = sel := by
  cases op with
  | bmAllocRange | bmAcquire | bmAcquireAny | bmRelease | bmTest | bmReadWord => exact BmSel.toBits_ofBits sel
  | bmClaim => exact ClaimKind.toBits_ofBits sel
  | ienRead =>
    obtain rfl | rfl : sel = 0 ∨ sel = 1 := of_decide_eq_true h
    · rfl
    · rfl
  | _ => exact (of_decide_eq_true h).symm

/-- Settles O2: the fields of the encoded command word pass the decoder's three tests, and assembling gives the instruction
back. -/
theorem decodeOfEncodeIsIdentity : Obligations.DecodeOfEncodeIsIdentity := by
  intro i hi
  exact decode_eq_command_iff.2 (by simp [encode, hi])

/-- Settles O3: the assembled instruction keeps `OPC` and `SEL`, and with `RSV = 0` these two are the whole command word. -/
theorem acceptedCommandWordIsTheEncoding : Obligations.AcceptedCommandWordIsTheEncoding := by
  intro r i h
  obtain ⟨hrsv, op, hop, hsel, rfl⟩ := decode_eq_command_iff.1 h
  have hkeep := sel_assemble r.args hsel
  constructor
  · rw [← selAllowed_op_sel, op_assemble, hkeep, hsel]
  · simp only [encode, op_assemble, hkeep, Op.opc_of_ofOpc hop, commandWord_fields r.cmd hrsv]

/-! ## The argument words and bits that a row reads (R39, R45) -/

/-- A field of a word is fixed by the digit of the word's number that it stands for. -/
theorem extractLsb'_congr {v w : Word} {start len : Nat}
    (h : v.toNat / 2 ^ start % 2 ^ len = w.toNat / 2 ^ start % 2 ^ len) :
    v.extractLsb' start len = w.extractLsb' start len :=
  BitVec.eq_of_toNat_eq (by simpa [Nat.shiftRight_eq_div_pow] using h)

/-- A command that reads nothing of the arguments but what `a` and `a'` agree on decodes the same from both. -/
theorem decode_congr_args {cmd : Word} {a a' : Words8} {i : Instr} (h : decode { cmd := cmd, args := a } = .command i)
    (ha : ∀ sel, assemble i.op sel a' = assemble i.op sel a) : decode { cmd := cmd, args := a' } = .command i := by
  obtain ⟨hrsv, op, hop, hsel, rfl⟩ := decode_eq_command_iff.1 h
  rw [op_assemble] at ha
  exact decode_eq_command_iff.2 ⟨hrsv, op, hop, hsel, ha _⟩

/-- SLOT_WRITE reads `ARG[0]` and bits 1..0, 8 and 9 of `ARG[1]`. -/
theorem assemble_slotWrite_congr {a a' : Words8} (h0 : a'.w0 = a.w0) (hdir : a'.w1.toNat % 4 = a.w1.toNat % 4)
    (hflags : a'.w1.toNat / 256 % 4 = a.w1.toNat / 256 % 4) (sel : BitVec 2) :
    assemble .slotWrite sel a' = assemble .slotWrite sel a := by
  have h1 : a'.w1.extractLsb' 0 2 = a.w1.extractLsb' 0 2 := extractLsb'_congr (by simpa using hdir)
  have h2 : a'.w1.extractLsb' 8 2 = a.w1.extractLsb' 8 2 := extractLsb'_congr hflags
  have halloc : a'.w1.getLsbD 8 = a.w1.getLsbD 8 := by simpa using congrArg (·.getLsbD 0) h2
  have hcben : a'.w1.getLsbD 9 = a.w1.getLsbD 9 := by simpa using congrArg (·.getLsbD 1) h2
  simp only [assemble, h0, h1, halloc, hcben]

/-- SYNTH reads `ARG[0][7:0]`, `ARG[1..5]`, `ARG[6][5:0]` and `ARG[6][31:16]`. -/
theorem synthRequestOf_congr {a a' : Words8} (h0 : a'.w0.toNat % 256 = a.w0.toNat % 256) (h1 : a'.w1 = a.w1)
    (h2 : a'.w2 = a.w2) (h3 : a'.w3 = a.w3) (h4 : a'.w4 = a.w4) (h5 : a'.w5 = a.w5)
    (hcode : a'.w6.toNat % 64 = a.w6.toNat % 64) (hcount : a'.w6.toNat / 65536 = a.w6.toNat / 65536) :
    synthRequestOf a' = synthRequestOf a := by
  have hdir : a'.w0.extractLsb' 0 8 = a.w0.extractLsb' 0 8 := extractLsb'_congr (by simpa using h0)
  have hcc : a'.w6.extractLsb' 0 6 = a.w6.extractLsb' 0 6 := extractLsb'_congr (by simpa using hcode)
  have hn : hiHalf a'.w6 = hiHalf a.w6 := extractLsb'_congr (congrArg (· % 2 ^ 16) hcount)
  simp only [synthRequestOf, hdir, h1, h2, h3, h4, h5, hcc, hn]

/-- Settles O4: in each of the five groups `assemble` reads only the words and bits that the row names. -/
theorem ignoredArgumentBitsHaveNoEffect : Obligations.IgnoredArgumentBitsHaveNoEffect := by
  intro cmd a a' i h
  refine ⟨fun hi => ?_, fun hi h0 => ?_, fun hi h0 h1 => ?_, fun hi h0 hdir hflags => ?_,
    fun hi h0 h1 h2 h3 h4 h5 hcode hcount => ?_⟩ <;> refine decode_congr_args h fun sel => ?_
  · generalize i.op = op at hi ⊢
    fin_cases hi <;> rfl
  · generalize i.op = op at hi ⊢
    fin_cases hi <;> simp only [assemble, h0]
  · generalize i.op = op at hi ⊢
    fin_cases hi <;> simp only [assemble, h0, h1]
  · rw [hi]
    exact assemble_slotWrite_congr h0 hdir hflags sel
  · rw [hi]
    exact congrArg Instr.synth (synthRequestOf_congr h0 h1 h2 h3 h4 h5 hcode hcount)

/-! ## The command words that name no command (R37, R38, R42) -/

theorem toNat_opcField (cmd : Word) : (opcField cmd).toNat = cmd.toNat % 256 := by simp [opcField]

theorem toNat_selField (cmd : Word) : (selField cmd).toNat = cmd.toNat / 256 % 4 := by
  simp [selField, Nat.shiftRight_eq_div_pow]

theorem rsvField_eq_zero_iff (cmd : Word) : rsvField cmd = 0 ↔ cmd.toNat / 1024 = 0 := by
  have hlt : cmd.toNat / 1024 < 4194304 := by omega
  have h : (rsvField cmd).toNat = cmd.toNat / 1024 := by
    simpa [rsvField, Nat.shiftRight_eq_div_pow] using Nat.mod_eq_of_lt hlt
  rw [← h, ← BitVec.toNat_inj]
  rfl

/-- The opcodes of R41 as the numbers that `NamesNoCommand` lists. -/
theorem ofOpc_eq_none_iff (c : BitVec 8) :
    Op.ofOpc c = none ↔
      c.toNat ∉ [0x01, 0x02, 0x03, 0x04, 0x05, 0x06, 0x07, 0x10, 0x20, 0x21, 0x22, 0x23, 0x28, 0x29, 0x2A, 0x30, 0x31] := by
  have hall : [0x01, 0x02, 0x03, 0x04, 0x05, 0x06, 0x07, 0x10, 0x20, 0x21, 0x22, 0x23, 0x28, 0x29, 0x2A, 0x30, 0x31] =
      Op.all.map (·.opc.toNat) := rfl
  simp [hall, Op.ofOpc, ← BitVec.toNat_inj]

/-- The select values that `NamesNoCommand` refuses, by the numbers of `OPC` and `SEL`: its last three clauses. -/
def SelRefused (opc sel : Nat) : Prop :=
  (opc ∈ [0x03, 0x04, 0x05, 0x06, 0x07] ∧ sel = 3) ∨ (opc = 0x2A ∧ 2 ≤ sel) ∨
    (opc ∈ [0x10, 0x20, 0x21, 0x22, 0x23, 0x28, 0x29, 0x30, 0x31] ∧ sel ≠ 0)

theorem selRefused_opc_iff (op : Op) (sel : BitVec 2) : SelRefused op.opc.toNat sel.toNat ↔ op.selAllowed sel = false := by
  unfold SelRefused
  revert sel
  cases op <;> decide

/-- The numbers of `NamesNoCommand` are the decoder's three tests. -/
theorem not_namesNoCommand_iff (cmd : Word) :
    ¬ NamesNoCommand cmd ↔
      rsvField cmd = 0 ∧ ∃ op, Op.ofOpc (opcField cmd) = some op ∧ op.selAllowed (selField cmd) = true := by
  have hnames : NamesNoCommand cmd ↔
      rsvField cmd ≠ 0 ∨ Op.ofOpc (opcField cmd) = none ∨ SelRefused (opcField cmd).toNat (selField cmd).toNat := by
    rw [ne_eq, rsvField_eq_zero_iff, ofOpc_eq_none_iff, toNat_opcField, toNat_selField]
    rfl
  rw [hnames]
  cases hop : Op.ofOpc (opcField cmd) with
  | none => simp
  | some op => simp [← Op.opc_of_ofOpc hop, selRefused_opc_iff]

/-- The refused command words are exactly those of `NamesNoCommand`; the arguments do not matter. -/
theorem exists_decode_eq_command_iff (r : Request) : (∃ i, decode r = .command i) ↔ ¬ NamesNoCommand r.cmd := by
  simp [decode_eq_command_iff, not_namesNoCommand_iff]

/-- Settles O5: the decoder rejects such a word, and the port's answer to a rejected word changes the response alone. -/
theorem unnamedCommandWordsAreRefused : Obligations.UnnamedCommandWordsAreRefused := by
  intro s r hs hr
  obtain ⟨i, hi, -⟩ | ⟨-, hport⟩ := port_cases r s
  · exact absurd hr ((exists_decode_eq_command_iff r).1 ⟨i, hi⟩)
  · exact (step_push s (.command r) hs).trans hport

/-- Settles O6: a word that passes the decoder's three tests decodes. -/
theorem otherCommandWordsDecode : Obligations.OtherCommandWordsDecode :=
  fun r => (exists_decode_eq_command_iff r).2

/-- Settles O1: the decoder evaluates on the seven requests. -/
theorem knownRequestsDecode : Obligations.KnownRequestsDecode := by
  unfold Obligations.KnownRequestsDecode
  decide

end Sys2Proof

namespace Sys2Proof.Machine

/-! # The allocator (40_allocator.md)

Each command has one equation per outcome. What an outcome does to the bits and what it leaves alone are then read off two
rules: a write of one bitmap (`changesOnlyBitmap_respond_setBm`) and the range set in a claim's targets (`bit_setTargets`). -/

/-! ## A write of one bitmap -/

/-- Of the two states, nothing but bitmap `b` and the response differs. -/
def ChangesOnlyBitmap (b : Bitmap) (s t : State) : Prop :=
  (∀ b', b' ≠ b → t.bm b' = s.bm b') ∧ KeepsEvents s t ∧ KeepsSlots s t ∧ KeepsDispatcher s t ∧ KeepsEnvironment s t

/-- "A write to one bitmap never changes another" (00_scope.md R5), nor anything else. -/
theorem changesOnlyBitmap_respond_setBm (s : State) (b : Bitmap) (l : List Bool) (st : Status) (r : Words8) :
    ChangesOnlyBitmap b s ((s.setBm b l).respond st r) := by
  refine ⟨fun b' hb => by simp [hb], ?_⟩
  simp [KeepsEvents, KeepsSlots, KeepsDispatcher, KeepsEnvironment]

theorem changesOnlyBitmap_respond_setBit (s : State) (b : Bitmap) (i : Nat) (v : Bool) (st : Status) (r : Words8) :
    ChangesOnlyBitmap b s ((s.setBit b i v).respond st r) :=
  changesOnlyBitmap_respond_setBm s b _ st r

theorem changesOnlyBitmap_respond_setRange (s : State) (b : Bitmap) (first last : Nat) (st : Status) (r : Words8) :
    ChangesOnlyBitmap b s ((s.setRange b first last).respond st r) :=
  changesOnlyBitmap_respond_setBm s b _ st r

/-- An index below the capacity has a bit (10_state.md R7). -/
theorem State.Inv.lt_length {s : State} {b : Bitmap} {i : Nat} (hs : s.Inv) (hi : i < s.cfg.cap b) :
    i < (s.bm b).length := by
  rwa [hs.bm_length]

/-- Taking bit `i` adds it to the bits that were set. -/
theorem bit_setBit_true {s : State} {b : Bitmap} {i : Nat} (h : i < (s.bm b).length) (j : Nat) :
    (s.setBit b i true).bit b j = (s.bit b j || decide (j = i)) := by
  rw [bit_setBit _ _ _ _ _ _ h]
  by_cases hj : j = i <;> simp [hj]

/-- Releasing bit `i` takes it from the bits that were set. -/
theorem bit_setBit_false {s : State} {b : Bitmap} {i : Nat} (h : i < (s.bm b).length) (j : Nat) :
    (s.setBit b i false).bit b j = (s.bit b j && decide (j ≠ i)) := by
  rw [bit_setBit _ _ _ _ _ _ h]
  by_cases hj : j = i <;> simp [hj]

/-! ## BM_ALLOC_RANGE (R47, R48) -/

theorem exec_bmAllocRange_none (first last : Word) (s : State) :
    exec (.bmAllocRange .none first last) s = fail .rangeRejected (s.emit (.rangeRejected .none first last)) :=
  rfl

theorem exec_bmAllocRange_of_bad {s : State} {b : Bitmap} {first last : Word}
    (h : last.toNat < first.toNat ∨ s.cfg.cap b ≤ last.toNat) :
    exec (.bmAllocRange b.sel first last) s = fail .rangeRejected (s.emit (.rangeRejected b.sel first last)) := by
  simp only [exec, execBmAllocRange, bitmap_sel]
  exact if_pos h

theorem exec_bmAllocRange_of_good {s : State} {b : Bitmap} {first last : Word} (hle : first.toNat ≤ last.toNat)
    (hlast : last.toNat < s.cfg.cap b) :
    exec (.bmAllocRange b.sel first last) s = ok Words8.zero (s.setRange b first.toNat last.toNat) := by
  simp only [exec, execBmAllocRange, bitmap_sel]
  exact if_neg (by omega)

/-- Settles O8: an accepted range is one `setRange`, which sets exactly its own bits. -/
theorem allocRangeSetsExactlyTheRange : Obligations.AllocRangeSetsExactlyTheRange := by
  intro s b first last hs hle hlast
  refine ⟨_, exec_bmAllocRange_of_good hle hlast, rfl, fun j => ?_, changesOnlyBitmap_respond_setRange ..⟩
  simp [bit_setRange _ _ _ _ _ _ (hs.lt_length hlast)]

theorem Bitmap.eq_of_sel_eq {b b' : Bitmap} (h : b.sel = b'.sel) : b = b' := by
  simpa using congrArg BmSel.bitmap h

/-- Settles O9: the absent bitmap has its own arm; for a bitmap the other two causes are one test. -/
theorem allocRangeRejectsBadRanges : Obligations.AllocRangeRejectsBadRanges := by
  intro s b first last h
  cases hb : b.bitmap with
  | none =>
    obtain rfl := (bitmap_eq_none b).1 hb
    exact exec_bmAllocRange_none first last s
  | some m =>
    obtain rfl := (bitmap_eq_some b m).1 hb
    refine exec_bmAllocRange_of_bad ?_
    rcases h with hnone | hrev | ⟨m', hm, hcap⟩
    · exact absurd (hb.symm.trans ((bitmap_eq_none _).2 hnone)) nofun
    · exact .inl hrev
    · exact .inr (Bitmap.eq_of_sel_eq hm ▸ hcap)

/-- Bit `j` of storage word `k` after the word-level update: the update sets exactly the bits of the range (R48). -/
theorem getLsbD_rangeWord {first last : Nat} (h : first ≤ last) (k : Nat) (w : Word) {j : Nat} (hj : j < 32) :
    (rangeWord first last k w).getLsbD j =
      (w.getLsbD j || decide (first ≤ 32 * k + j ∧ 32 * k + j ≤ last)) := by
  have hhead := getLsbD_headMask (first % 32) j hj
  have htail := getLsbD_tailMask (last % 32) j (Nat.mod_lt _ (by decide))
  have hones : (0xFFFFFFFF#32).getLsbD j = true := by
    rw [show 0xFFFFFFFF#32 = BitVec.allOnes 32 from rfl, BitVec.getLsbD_allOnes, decide_eq_true hj]
  unfold rangeWord
  split_ifs with hone hk hk hmid hk
  · rw [BitVec.getLsbD_or, BitVec.getLsbD_and, hhead, htail, ← Bool.decide_and]
    exact congrArg _ (decide_eq_decide.2 (by omega))
  · have : ¬ (first ≤ 32 * k + j ∧ 32 * k + j ≤ last) := by omega
    simp [this]
  · rw [BitVec.getLsbD_or, hhead]
    exact congrArg _ (decide_eq_decide.2 (by omega))
  · have : first ≤ 32 * k + j ∧ 32 * k + j ≤ last := by omega
    simp [hones, this]
  · rw [BitVec.getLsbD_or, htail]
    exact congrArg _ (decide_eq_decide.2 (by omega))
  · have : ¬ (first ≤ 32 * k + j ∧ 32 * k + j ≤ last) := by omega
    simp [this]

/-- Settles O10: bit by bit, the bit loop and the word-level update set the same bits. -/
theorem allocRangeIsTheWordUpdate : Obligations.AllocRangeIsTheWordUpdate := by
  intro s b first last hs hle hlast
  refine ⟨_, exec_bmAllocRange_of_good hle hlast, fun k _ => BitVec.eq_of_getLsbD_eq fun j hj => ?_⟩
  rw [getLsbD_rangeWord hle k _ hj, getLsbD_bmWord, getLsbD_bmWord, bit_respond,
    bit_setRange _ _ _ _ _ _ (hs.lt_length hlast), if_pos rfl, decide_eq_true hj, Bool.true_and, Bool.true_and]

/-! ## BM_CLAIM (R49) -/

theorem exec_bmClaim_of_no_kind {s : State} {k : ClaimKind} (first last : Word) (h : claimLimit s.cfg k = none) :
    exec (.bmClaim k first last) s = fail .invalidResourceRange s := by
  simp only [exec, execBmClaim, h]

theorem exec_bmClaim_of_limit_le {s : State} {k : ClaimKind} {lim : Nat} (first : Word) {last : Word}
    (h : claimLimit s.cfg k = some lim) (hlim : lim ≤ last.toNat) :
    exec (.bmClaim k first last) s = fail .invalidResourceRange s := by
  simp only [exec, execBmClaim, h]
  exact if_pos hlim

/-- A reversed range where CLAIM_REVERSED is Invalid gives the status of the other two checks, so their order is not seen. -/
theorem exec_bmClaim_of_reversed_invalid {s : State} {first last : Word} (k : ClaimKind)
    (hrev : last.toNat < first.toNat) (hcfg : s.cfg.claimReversed = .invalid) :
    exec (.bmClaim k first last) s = fail .invalidResourceRange s := by
  cases h : claimLimit s.cfg k with
  | none => exact exec_bmClaim_of_no_kind first last h
  | some lim =>
    by_cases hlim : lim ≤ last.toNat
    · exact exec_bmClaim_of_limit_le first h hlim
    · simp only [exec, execBmClaim, h, hcfg, ge_iff_le, gt_iff_lt, if_neg hlim, if_pos hrev]

theorem exec_bmClaim_of_reversed_warnNoop {s : State} {k : ClaimKind} {lim : Nat} {first last : Word}
    (h : claimLimit s.cfg k = some lim) (hlim : last.toNat < lim) (hrev : last.toNat < first.toNat)
    (hcfg : s.cfg.claimReversed = .warnNoop) :
    exec (.bmClaim k first last) s =
      .next { s with
        resp := ⟨.ok, Words8.zero⟩, evt := s.evt ++ (claimTargets k).map fun t => .rangeRejected t.sel first last } := by
  simp only [exec, execBmClaim, h, hcfg, ge_iff_le, gt_iff_lt, if_neg (Nat.not_le.2 hlim), if_pos hrev, warnTargets_eq]
  rfl

theorem exec_bmClaim_of_good {s : State} {k : ClaimKind} {lim : Nat} {first last : Word}
    (h : claimLimit s.cfg k = some lim) (hlim : last.toNat < lim) (hle : first.toNat ≤ last.toNat) :
    exec (.bmClaim k first last) s = ok Words8.zero (setTargets (claimTargets k) first.toNat last.toNat s) := by
  simp only [exec, execBmClaim, h, ge_iff_le, gt_iff_lt, if_neg (Nat.not_le.2 hlim), if_neg (Nat.not_lt.2 hle)]

theorem length_bm_setRange (s : State) (b b' : Bitmap) (first last : Nat) :
    ((s.setRange b first last).bm b').length = (s.bm b').length := by
  by_cases hb : b' = b <;> simp [hb]

/-- A bitmap that is not a target is not touched. -/
theorem bm_setTargets_of_notMem {ts : List Bitmap} {b : Bitmap} (first last : Nat) (s : State) (hb : b ∉ ts) :
    (setTargets ts first last s).bm b = s.bm b := by
  induction ts generalizing s with
  | nil => rfl
  | cons t ts ih =>
    obtain ⟨hne, hts⟩ := List.ne_and_not_mem_of_not_mem_cons hb
    exact (ih (s.setRange t first last) hts).trans (by simp [hne])

/-- The range is set in the targets, however often each is listed, and in no other bitmap. -/
theorem bit_setTargets {ts : List Bitmap} {first last : Nat} {s : State} (hlast : ∀ t ∈ ts, last < (s.bm t).length)
    (b : Bitmap) (j : Nat) :
    (setTargets ts first last s).bit b j = (s.bit b j || decide (b ∈ ts ∧ first ≤ j ∧ j ≤ last)) := by
  induction ts generalizing s with
  | nil => simp [setTargets]
  | cons t ts ih =>
    obtain ⟨ht, hts⟩ := List.forall_mem_cons.1 hlast
    have hset := ih (s := s.setRange t first last) fun t' ht' => by
      rw [length_bm_setRange]
      exact hts t' ht'
    refine hset.trans ?_
    rw [bit_setRange _ _ _ _ _ _ ht]
    by_cases hb : b = t
    · by_cases hj : first ≤ j ∧ j ≤ last <;> simp [hb, hj]
    · simp [hb]

/-- A kind's count is within the capacity of each of its targets (00_scope.md R1). -/
theorem claimLimit_le_cap {p : Params} {k : ClaimKind} {lim : Nat} {b : Bitmap} (hp : p.Valid)
    (h : claimLimit p k = some lim) (hb : b ∈ claimTargets k) : lim ≤ p.cap b := by
  obtain ⟨-, -, -, hslot, hchan, -, hcc, -⟩ := hp
  cases k with
  | channelPool =>
    cases h
    fin_cases hb
    · exact hchan
    · exact hcc
  | descriptorSlotPool =>
    cases h
    fin_cases hb
    exact hslot
  | kind2 | kind3 => cases h

/-- An accepted claim of any kind: the range set in the targets, and nothing else changed but the response. -/
theorem claim_takes_range {s : State} {k : ClaimKind} {lim : Nat} {first last : Word} (hs : s.Inv)
    (h : claimLimit s.cfg k = some lim) (hlim : last.toNat < lim) (hle : first.toNat ≤ last.toNat) :
    ∃ t, exec (.bmClaim k first last) s = .next t ∧ t.resp = ⟨.ok, Words8.zero⟩ ∧
      (∀ b ∈ claimTargets k, ∀ j, t.bit b j = (s.bit b j || decide (InRange first last j))) ∧
      (∀ b, b ∉ claimTargets k → t.bm b = s.bm b) ∧
      KeepsEvents s t ∧ KeepsSlots s t ∧ KeepsDispatcher s t ∧ KeepsEnvironment s t := by
  obtain ⟨hslots, hdispatcher, hevents, henv⟩ := setTargets_keeps (claimTargets k) first.toNat last.toNat s
  refine ⟨_, exec_bmClaim_of_good h hlim hle, rfl, fun b hb j => ?_, fun b hb => ?_, hevents, hslots, hdispatcher, henv⟩
  · rw [bit_respond, bit_setTargets fun b' hb' => hs.lt_length (hlim.trans_le (claimLimit_le_cap hs.cfg_valid h hb'))]
    simp only [hb, true_and]
  · rw [bm_respond]
    exact bm_setTargets_of_notMem _ _ s hb

/-- Settles O11: the four outcomes of a claim, each for every kind, read at the two kinds that have targets. -/
theorem claimChecksAndTakesTheRange : Obligations.ClaimChecksAndTakesTheRange := by
  intro s first last hs
  have hchan : claimLimit s.cfg .channelPool = some s.cfg.chCount := rfl
  have hslot : claimLimit s.cfg .descriptorSlotPool = some s.cfg.slotMax := rfl
  refine ⟨fun k hk => ?_, fun hrev hcfg k => exec_bmClaim_of_reversed_invalid k hrev hcfg, fun hrev hcfg => ⟨?_, ?_⟩, ?_, ?_⟩
  · rcases hk with rfl | rfl | ⟨rfl, hlim⟩ | ⟨rfl, hlim⟩
    · exact exec_bmClaim_of_no_kind first last rfl
    · exact exec_bmClaim_of_no_kind first last rfl
    · exact exec_bmClaim_of_limit_le first hchan hlim
    · exact exec_bmClaim_of_limit_le first hslot hlim
  · exact fun hlim => exec_bmClaim_of_reversed_warnNoop hchan hlim hrev hcfg
  · exact fun hlim => exec_bmClaim_of_reversed_warnNoop hslot hlim hrev hcfg
  · intro hle hlim
    obtain ⟨t, he, hresp, hbits, hother, hkeeps⟩ := claim_takes_range hs hchan hlim hle
    exact ⟨t, he, hresp, hbits .chan (by decide), hbits .cc (by decide), hother .slot (by decide), hkeeps⟩
  · intro hle hlim
    obtain ⟨t, he, hresp, hbits, hother, hkeeps⟩ := claim_takes_range hs hslot hlim hle
    exact ⟨t, he, hresp, hbits .slot (by decide), hother .chan (by decide), hother .cc (by decide), hkeeps⟩

/-! ## BM_ACQUIRE (R50) -/

theorem exec_bmAcquire_of_cap_le {s : State} {b : Bitmap} {i : Word} (h : s.cfg.cap b ≤ i.toNat) :
    exec (.bmAcquire b.sel i) s = fail .indexRange s := by
  simp only [exec, execBmAcquire, bitmap_sel, ge_iff_le, if_pos h]

theorem exec_bmAcquire_of_taken {s : State} {b : Bitmap} {i : Word} (h : i.toNat < s.cfg.cap b)
    (hbit : s.bit b i.toNat = true) : exec (.bmAcquire b.sel i) s = fail .allocationFailed s := by
  simp only [exec, execBmAcquire, bitmap_sel, ge_iff_le, if_neg (Nat.not_le.2 h), if_pos hbit]

theorem exec_bmAcquire_of_free {s : State} {b : Bitmap} {i : Word} (h : i.toNat < s.cfg.cap b)
    (hbit : s.bit b i.toNat = false) :
    exec (.bmAcquire b.sel i) s = ok { w0 := i } (s.setBit b i.toNat true) := by
  simp only [exec, execBmAcquire, bitmap_sel, ge_iff_le, if_neg (Nat.not_le.2 h), hbit, Bool.false_eq_true, if_false]

/-- Settles O12: the three outcomes of `execBmAcquire`; the last one is a single `setBit`. -/
theorem acquireTestsAndSets : Obligations.AcquireTestsAndSets := by
  intro s b i hs
  refine ⟨fun h => exec_bmAcquire_of_cap_le h, fun h hbit => exec_bmAcquire_of_taken h hbit, fun h hbit =>
    ⟨_, exec_bmAcquire_of_free h hbit, rfl, fun j => ?_, changesOnlyBitmap_respond_setBit ..⟩⟩
  rw [bit_respond, bit_setBit_true (hs.lt_length h)]

/-! ## BM_ACQUIRE_ANY (R51) -/

theorem exec_bmAcquireAny_of_none {s : State} {b : Bitmap} (h : lowestFree (s.bm b) = none) :
    exec (.bmAcquireAny b.sel) s = fail .allocationFailed s := by
  simp only [exec, execBmAcquireAny, bitmap_sel, h]

theorem exec_bmAcquireAny_of_some {s : State} {b : Bitmap} {i : Nat} (h : lowestFree (s.bm b) = some i) :
    exec (.bmAcquireAny b.sel) s = ok { w0 := natWord i } (s.setBit b i true) := by
  simp only [exec, execBmAcquireAny, bitmap_sel, h]

theorem cap_le_65536 {p : Params} (hp : p.Valid) (b : Bitmap) : p.cap b ≤ 65536 := by
  obtain ⟨-, -, -, -, -, hchan, -, hcc, hslot⟩ := hp
  cases b with
  | chan => exact hchan
  | cc => exact hcc
  | slot => exact hslot

/-- An index of a bitmap fits a result word. -/
theorem toNat_natWord_of_lt_cap {p : Params} {b : Bitmap} {i : Nat} (hp : p.Valid) (hi : i < p.cap b) :
    (natWord i).toNat = i := by
  have := cap_le_65536 hp b
  exact (BitVec.toNat_ofNat i 32).trans (Nat.mod_eq_of_lt (by omega))

/-- Settles O13: `lowestFree` finds none exactly when every bit is set, and else the lowest free index. -/
theorem acquireAnyTakesTheLowestFree : Obligations.AcquireAnyTakesTheLowestFree := by
  intro s b hs
  constructor
  · intro hall
    exact exec_bmAcquireAny_of_none ((lowestFree_eq_none _).2 (by rwa [hs.bm_length]))
  · intro i hi hfree hbelow
    have hlen := hs.lt_length hi
    refine ⟨_, exec_bmAcquireAny_of_some ((lowestFree_eq_some _ i).2 ⟨hlen, hfree, hbelow⟩), rfl,
      toNat_natWord_of_lt_cap hs.cfg_valid hi, rfl, fun j => ?_, changesOnlyBitmap_respond_setBit ..⟩
    rw [bit_respond, bit_setBit_true hlen]

/-! ## BM_RELEASE (R52) -/

theorem exec_bmRelease_of_cap_le {s : State} {b : Bitmap} {i : Word} (h : s.cfg.cap b ≤ i.toNat) :
    exec (.bmRelease b.sel i) s = fail .indexRange s := by
  simp only [exec, execBmRelease, bitmap_sel, ge_iff_le, if_pos h]

theorem exec_bmRelease_of_free {s : State} {b : Bitmap} {i : Word} (h : i.toNat < s.cfg.cap b)
    (hbit : s.bit b i.toNat = false) : exec (.bmRelease b.sel i) s = fail .releaseFailed s := by
  simp only [exec, execBmRelease, bitmap_sel, ge_iff_le, if_neg (Nat.not_le.2 h), hbit, Bool.false_eq_true, if_false]

theorem exec_bmRelease_of_taken {s : State} {b : Bitmap} {i : Word} (h : i.toNat < s.cfg.cap b)
    (hbit : s.bit b i.toNat = true) :
    exec (.bmRelease b.sel i) s = ok Words8.zero (s.setBit b i.toNat false) := by
  simp only [exec, execBmRelease, bitmap_sel, ge_iff_le, if_neg (Nat.not_le.2 h), if_pos hbit]

/-- Settles O14: the three outcomes of `execBmRelease`; the last one is a single `setBit`. -/
theorem releaseTestsAndClears : Obligations.ReleaseTestsAndClears := by
  intro s b i hs
  refine ⟨fun h => exec_bmRelease_of_cap_le h, fun h hbit => exec_bmRelease_of_free h hbit, fun h hbit =>
    ⟨_, exec_bmRelease_of_taken h hbit, rfl, fun j => ?_, changesOnlyBitmap_respond_setBit ..⟩⟩
  rw [bit_respond, bit_setBit_false (hs.lt_length h)]

/-! ## BM_TEST and BM_READ_WORD (R53, R54) -/

/-- Settles O15: BM_TEST has two outcomes, and neither writes the state. -/
theorem testReadsOneBit : Obligations.TestReadsOneBit := by
  intro s b i
  constructor
  · intro h
    simp only [exec, execBmTest, bitmap_sel, ge_iff_le, if_pos h, fail_eq]
  · intro h
    simp only [exec, execBmTest, bitmap_sel, ge_iff_le, if_neg (Nat.not_le.2 h), ok_eq, bitWord_eq]

/-- `k` is beyond the last storage word exactly when the word's first bit is beyond the capacity (00_scope.md R2). -/
theorem numWords_le_iff (cap k : Nat) : numWords cap ≤ k ↔ cap ≤ 32 * k := by
  unfold numWords
  omega

theorem exec_bmReadWord_of_cap_le {s : State} {b : Bitmap} {k : Word} (h : s.cfg.cap b ≤ 32 * k.toNat) :
    exec (.bmReadWord b.sel k) s = fail .indexRange s := by
  simp only [exec, execBmReadWord, bitmap_sel, ge_iff_le, numWords_le_iff, if_pos h]

theorem exec_bmReadWord_of_lt_cap {s : State} {b : Bitmap} {k : Word} (h : 32 * k.toNat < s.cfg.cap b) :
    exec (.bmReadWord b.sel k) s = ok { w0 := s.bmWord b k.toNat } s := by
  simp only [exec, execBmReadWord, bitmap_sel, ge_iff_le, numWords_le_iff, if_neg (Nat.not_le.2 h)]

/-- An index beyond the capacity reads 0 (10_state.md R8). -/
theorem State.Inv.bit_eq_lt_cap_and {s : State} (hs : s.Inv) (b : Bitmap) (i : Nat) :
    s.bit b i = (decide (i < s.cfg.cap b) && s.bit b i) := by
  by_cases hi : i < s.cfg.cap b
  · rw [decide_eq_true hi, Bool.true_and]
  · rw [decide_eq_false hi, Bool.false_and]
    exact bit_eq_false_of_length_le (by rw [hs.bm_length]; omega)

/-- Settles O16: the word is `bmWord`, whose bits beyond the capacity are the padding. -/
theorem readWordPacksThirtyTwoBits : Obligations.ReadWordPacksThirtyTwoBits := by
  intro s b k hs
  refine ⟨fun h => exec_bmReadWord_of_cap_le h, fun h => ⟨_, exec_bmReadWord_of_lt_cap h, fun j hj => ?_⟩⟩
  rw [getLsbD_bmWord, decide_eq_true hj, Bool.true_and]
  exact hs.bit_eq_lt_cap_and b _

/-! ## What no allocator command touches (R58) -/

/-- The bitmaps that a command may write: its claim kind's targets, or the bitmap its select value names. -/
def targetsOf (i : Instr) : List Bitmap :=
  match i with
  | .bmAllocRange b _ _ | .bmAcquire b _ | .bmAcquireAny b | .bmRelease b _ => b.bitmap.toList
  | .bmClaim k _ _ => claimTargets k
  | _ => []

/-- Only bitmaps among `ts` differ. -/
def KeepsOtherBitmaps (ts : List Bitmap) (s t : State) : Prop := ∀ b, b ∉ ts → t.bm b = s.bm b

@[simp] theorem keepsOtherBitmaps_refl (ts : List Bitmap) (s : State) : KeepsOtherBitmaps ts s s := fun _ _ => rfl

@[simp] theorem keepsOtherBitmaps_respond (ts : List Bitmap) (s t : State) (st : Status) (r : Words8) :
    KeepsOtherBitmaps ts s (t.respond st r) ↔ KeepsOtherBitmaps ts s t := by simp [KeepsOtherBitmaps]

@[simp] theorem keepsOtherBitmaps_emit (ts : List Bitmap) (s : State) (e : Event) : KeepsOtherBitmaps ts s (s.emit e) :=
  fun b _ => bm_emit s b e

theorem keepsOtherBitmaps_setBm (s : State) (b : Bitmap) (l : List Bool) : KeepsOtherBitmaps [b] s (s.setBm b l) :=
  fun _ hb => (bm_setBm ..).trans (if_neg (mt List.mem_singleton.2 hb))

@[simp] theorem keepsOtherBitmaps_setBit (s : State) (b : Bitmap) (i : Nat) (v : Bool) :
    KeepsOtherBitmaps [b] s (s.setBit b i v) :=
  keepsOtherBitmaps_setBm s b _

@[simp] theorem keepsOtherBitmaps_setRange (s : State) (b : Bitmap) (first last : Nat) :
    KeepsOtherBitmaps [b] s (s.setRange b first last) :=
  keepsOtherBitmaps_setBm s b _

@[simp] theorem keepsOtherBitmaps_setTargets (ts : List Bitmap) (first last : Nat) (s : State) :
    KeepsOtherBitmaps ts s (setTargets ts first last s) :=
  fun _ hb => bm_setTargets_of_notMem first last s hb

@[simp] theorem keepsOtherBitmaps_warnTargets (ts us : List Bitmap) (first last : Word) (s : State) :
    KeepsOtherBitmaps ts s (warnTargets us first last s) := by
  intro b _
  rw [warnTargets_eq]
  cases b <;> rfl

theorem execBmAllocRange_keepsOtherBitmaps (b : BmSel) (first last : Word) (s : State) :
    Answers (execBmAllocRange b first last s) (KeepsOtherBitmaps b.bitmap.toList s) := by
  unfold execBmAllocRange
  split
  · simp
  · next m hb =>
    rw [hb, Option.toList_some]
    split <;> simp

theorem execBmClaim_keepsOtherBitmaps (k : ClaimKind) (first last : Word) (s : State) :
    Answers (execBmClaim k first last s) (KeepsOtherBitmaps (claimTargets k) s) := by
  unfold execBmClaim
  split
  · simp
  · split
    · simp
    · split
      · split <;> simp
      · simp

theorem execBmAcquire_keepsOtherBitmaps (b : BmSel) (i : Word) (s : State) :
    Answers (execBmAcquire b i s) (KeepsOtherBitmaps b.bitmap.toList s) := by
  unfold execBmAcquire
  split
  · simp
  · next m hb =>
    rw [hb, Option.toList_some]
    split
    · simp
    · split <;> simp

theorem execBmAcquireAny_keepsOtherBitmaps (b : BmSel) (s : State) :
    Answers (execBmAcquireAny b s) (KeepsOtherBitmaps b.bitmap.toList s) := by
  unfold execBmAcquireAny
  split
  · simp
  · next m hb =>
    rw [hb, Option.toList_some]
    split <;> simp

theorem execBmRelease_keepsOtherBitmaps (b : BmSel) (i : Word) (s : State) :
    Answers (execBmRelease b i s) (KeepsOtherBitmaps b.bitmap.toList s) := by
  unfold execBmRelease
  split
  · simp
  · next m hb =>
    rw [hb, Option.toList_some]
    split
    · simp
    · split <;> simp

theorem bm_eq_of_keepsBitmaps {s t : State} (h : KeepsBitmaps s t) (b : Bitmap) : t.bm b = s.bm b := by
  obtain ⟨hchan, hcc, hslot⟩ := h
  cases b with
  | chan => exact hchan
  | cc => exact hcc
  | slot => exact hslot

/-- A command writes no bitmap but its targets. -/
theorem exec_keepsOtherBitmaps (i : Instr) (s : State) : Answers (exec i s) (KeepsOtherBitmaps (targetsOf i) s) := by
  cases i with
  | bmAllocRange b first last => exact execBmAllocRange_keepsOtherBitmaps b first last s
  | bmClaim k first last => exact execBmClaim_keepsOtherBitmaps k first last s
  | bmAcquire b i => exact execBmAcquire_keepsOtherBitmaps b i s
  | bmAcquireAny b => exact execBmAcquireAny_keepsOtherBitmaps b s
  | bmRelease b i => exact execBmRelease_keepsOtherBitmaps b i s
  | _ => exact (exec_writes _ s).mono fun t h b _ => bm_eq_of_keepsBitmaps (h.keepsBitmaps (by simp [Instr.op])) b

/-- A target of any command but BM_CLAIM is the bitmap its select value names. -/
theorem sel_eq_of_mem_targetsOf {i : Instr} {b : Bitmap} (hb : b ∈ targetsOf i) (hi : i.op ≠ .bmClaim) :
    i.sel = b.sel.toBits := by
  have named {x : BmSel} (hx : b ∈ x.bitmap.toList) : x.toBits = b.sel.toBits :=
    congrArg BmSel.toBits ((bitmap_eq_some x b).1 (Option.mem_toList.1 hx))
  cases i with
  | bmAllocRange | bmAcquire | bmAcquireAny | bmRelease => exact named hb
  | bmClaim => exact absurd rfl hi
  | _ => cases hb

theorem Bitmap.eq_of_toBits_sel_eq {b b' : Bitmap} (h : b.sel.toBits = b'.sel.toBits) : b = b' :=
  Bitmap.eq_of_sel_eq (by simpa using congrArg BmSel.ofBits h)

/-- A command that is not BM_CLAIM has one target at most. -/
theorem eq_of_mem_targetsOf {i : Instr} {b b' : Bitmap} (hi : i.op ≠ .bmClaim) (hb : b ∈ targetsOf i)
    (hb' : b' ∈ targetsOf i) : b = b' :=
  Bitmap.eq_of_toBits_sel_eq ((sel_eq_of_mem_targetsOf hb hi).symm.trans (sel_eq_of_mem_targetsOf hb' hi))

/-- Only a ChannelPool claim has two targets, CHAN and CC. -/
theorem eq_claim_of_mem_targetsOf_of_ne {i : Instr} {b b' : Bitmap} (hb : b ∈ targetsOf i) (hb' : b' ∈ targetsOf i)
    (hne : b ≠ b') : ∃ first last, i = .bmClaim .channelPool first last ∧ b ≠ .slot ∧ b' ≠ .slot := by
  cases i with
  | bmClaim k first last =>
    cases k with
    | channelPool =>
      have notSlot {x : Bitmap} (hx : x ∈ claimTargets .channelPool) : x ≠ .slot := by
        rintro rfl
        exact absurd hx (by decide)
      exact ⟨first, last, rfl, notSlot hb, notSlot hb'⟩
    | descriptorSlotPool => exact absurd ((List.mem_singleton.1 hb).trans (List.mem_singleton.1 hb').symm) hne
    | kind2 | kind3 => cases hb
  | _ => exact absurd (eq_of_mem_targetsOf (by simp [Instr.op]) hb hb') hne

/-- Settles O17: what the access table denies an allocator command it leaves alone, and of the bitmaps it writes its targets
only. -/
theorem allocatorCommandsTouchNothingElse : Obligations.AllocatorCommandsTouchNothingElse := by
  intro s t i hop h
  have hw := (exec_writes i s).of_next h
  have hk := hw.keepsScan
  have htarget (b : Bitmap) (hb : t.bm b ≠ s.bm b) : b ∈ targetsOf i :=
    by_contra fun hn => hb ((exec_keepsOtherBitmaps i s).of_next h b hn)
  obtain ⟨hslots, hien, hgs⟩ :
      i.op ∉ [.slotWrite, .slotTas, .slotClear] ∧ i.op ∉ [.ienSet, .ienClr] ∧ i.op ≠ .ienSet := by
    generalize i.op = op at hop ⊢
    fin_cases hop <;> decide
  refine ⟨hw.keepsSlots hslots, ⟨hw.ien_eq hien, hw.gs_eq hgs, hk.dstate, hk.snap⟩, (exec_answers i s).of_next h, ?_, ?_⟩
  · exact fun b b' hb hb' hne => eq_claim_of_mem_targetsOf_of_ne (htarget b hb) (htarget b' hb') hne
  · exact fun b hi hb => sel_eq_of_mem_targetsOf (htarget b hb) hi

end Sys2Proof.Machine

namespace Sys2Proof.Machine

/-! ## The synthesizer

SYNTH is the response `synthResponse` of its request and of `CCOUNT_OVERFLOW`, plus the warning of 41_synthesizer.md R62
(`exec_synth`). `checkM2m_eq`, `checkPeriph_eq` and `countsPeriph_eq` say each check once, as a condition on the request's numbers;
`synthesize_memToMem` and `synthesize_peripheral` put them in the order of R61. -/

/-! ### The command -/

/-- What SYNTH answers (41_synthesizer.md R59, R70, R71). -/
def synthResponse (o : CcountOverflow) (q : SynthRequest) : Response :=
  match synthesize o q with
  | .error st => ⟨st, Words8.zero⟩
  | .ok d => ⟨.ok, d.words⟩

theorem exec_synth (s : State) (q : SynthRequest) :
    exec (.synth q) s =
      .next { s with
        resp := synthResponse s.cfg.ccountOverflow q,
        evt := s.evt ++ (if 1 < q.blockCount.toNat then [.multiBlockIgnored q.blockCount] else []) } := by
  change execSynth q s = _
  rw [← respond_warnBlocks, execSynth, synthResponse]
  cases synthesize s.cfg.ccountOverflow q <;> rfl

theorem resp_of_exec_synth {s t : State} {q : SynthRequest} (h : exec (.synth q) s = .next t) :
    t.resp = synthResponse s.cfg.ccountOverflow q := by
  rw [exec_synth] at h
  injection h with h
  rw [← h]

theorem synthResponse_of_error {o : CcountOverflow} {q : SynthRequest} {st : Status} (h : synthesize o q = .error st) :
    synthResponse o q = ⟨st, Words8.zero⟩ := by
  rw [synthResponse, h]

theorem synthResponse_of_ok {o : CcountOverflow} {q : SynthRequest} {d : Descriptor} (h : synthesize o q = .ok d) :
    synthResponse o q = ⟨.ok, d.words⟩ := by
  rw [synthResponse, h]

/-- Every failure answers zeros (41_synthesizer.md R71). -/
theorem synthResponse_res_of_status_ne_ok {o : CcountOverflow} {q : SynthRequest} (h : (synthResponse o q).status ≠ .ok) :
    (synthResponse o q).res = Words8.zero := by
  cases hs : synthesize o q with
  | error st => rw [synthResponse_of_error hs]
  | ok d => exact absurd (congrArg Response.status (synthResponse_of_ok hs)) h

/-! ### The checks and the counts -/

theorem multiple_eq_false_iff (x d : Nat) : multiple x d = false ↔ d = 0 ∨ x % d ≠ 0 := by
  simp [multiple, imp_iff_not_or]

/-- 41_synthesizer.md R63. -/
theorem checkM2m_eq (q : SynthRequest) :
    checkM2m q =
      if q.sourceElemSize ≠ q.destElemSize then some .sizeMismatch
      else if q.sourceElemSize.toNat = 0 ∨ q.blockSize.toNat % q.sourceElemSize.toNat ≠ 0 ∨
          65535 < q.blockSize.toNat / q.sourceElemSize.toNat then some .unsupported
      else none := by
  simp only [checkM2m, Bool.not_eq_true', multiple_eq_false_iff, ← or_assoc, ite_or, gt_iff_lt]

/-- 41_synthesizer.md R65. -/
theorem checkPeriph_eq (q : SynthRequest) :
    checkPeriph q =
      if q.sourceElemSize ≠ q.destElemSize ∨ q.sourceBurst ≠ q.destBurst then some .sizeMismatch
      else if q.sourceElemSize.toNat = 0 ∨ q.sourceBurst.toNat % q.sourceElemSize.toNat ≠ 0 ∨ q.sourceBurst.toNat = 0 ∨
          q.blockSize.toNat % q.sourceBurst.toNat ≠ 0 then some .unsupported
      else none := by
  simp only [checkPeriph, Bool.or_eq_true, Bool.not_eq_true', multiple_eq_false_iff, or_assoc]

/-- The counts of 41_synthesizer.md R66, the `c_count` field holding the low 16 bits of the full count (R67). -/
def peripheralCounts (q : SynthRequest) : Counts :=
  { a := q.sourceElemSize
    b := BitVec.ofNat 16 (q.sourceBurst.toNat / q.sourceElemSize.toNat)
    brld := BitVec.ofNat 16 (q.sourceBurst.toNat / q.sourceElemSize.toNat)
    c := BitVec.ofNat 16 (q.blockSize.toNat / q.sourceBurst.toNat) }

/-- 41_synthesizer.md R67. -/
theorem cCountField_eq (o : CcountOverflow) (n : Nat) :
    cCountField o n = if n ≤ 65535 ∨ o = .truncate16 then some (BitVec.ofNat 16 n) else none := by
  have truncated : BitVec.ofNat 16 (n % 65536) = BitVec.ofNat 16 n := BitVec.eq_of_toNat_eq (by simp)
  cases o <;> simp [cCountField, truncated]

theorem countsPeriph_eq (o : CcountOverflow) (q : SynthRequest) :
    countsPeriph o q =
      if q.blockSize.toNat / q.sourceBurst.toNat ≤ 65535 ∨ o = .truncate16 then some (peripheralCounts q) else none := by
  unfold countsPeriph
  rw [cCountField_eq]
  split_ifs <;> rfl

/-! ### The order of the checks (41_synthesizer.md R61) -/

theorem synthesize_unsupported_direction (o : CcountOverflow) {q : SynthRequest} (h1 : q.direction ≠ 1)
    (hp : ¬ (q.direction = 2 ∨ q.direction = 3)) : synthesize o q = .error .unsupportedDirection := by
  obtain ⟨h2, h3⟩ := not_or.1 hp
  have hd : supportedDirection q.direction = none := by rw [supportedDirection, if_neg h1, if_neg h2, if_neg h3]
  rw [synthesize, hd]

theorem synthesize_memToMem (o : CcountOverflow) {q : SynthRequest} (h : q.direction = 1) :
    synthesize o q = (checkM2m q).elim (.ok (descriptor q .memToMem (countsM2m q))) .error := by
  have hd : supportedDirection q.direction = some .memToMem := by rw [supportedDirection, if_pos h]
  rw [synthesize, hd]
  cases checkM2m q <;> rfl

/-- The direction of a peripheral request (41_synthesizer.md R61). -/
def peripheralDirection (q : SynthRequest) : Direction := if q.direction = 2 then .memToPeripheral else .peripheralToMemory

theorem synthesize_peripheral (o : CcountOverflow) {q : SynthRequest} (h : q.direction = 2 ∨ q.direction = 3) :
    synthesize o q =
      (checkPeriph q).elim
        ((countsPeriph o q).elim (.error .unsupported) fun k => .ok (descriptor q (peripheralDirection q) k)) .error := by
  have hd : supportedDirection q.direction = some (peripheralDirection q) := by
    rcases h with h | h <;> simp [supportedDirection, peripheralDirection, h]
  rw [synthesize, hd]
  obtain hp | hp : peripheralDirection q = .memToPeripheral ∨ peripheralDirection q = .peripheralToMemory := ite_eq_or_eq _ _ _
  all_goals
    rw [hp]
    cases checkPeriph q with
    | some st => rfl
    | none => cases countsPeriph o q <;> rfl

theorem checkM2m_eq_none_iff (q : SynthRequest) :
    checkM2m q = none ↔
      q.sourceElemSize = q.destElemSize ∧ q.sourceElemSize.toNat ≠ 0 ∧
        q.blockSize.toNat % q.sourceElemSize.toNat = 0 ∧ q.blockSize.toNat / q.sourceElemSize.toNat ≤ 65535 := by
  simp [checkM2m_eq, apply_ite (· = none)]

theorem checkPeriph_eq_none_iff (q : SynthRequest) :
    checkPeriph q = none ↔
      (q.sourceElemSize = q.destElemSize ∧ q.sourceBurst = q.destBurst) ∧ q.sourceElemSize.toNat ≠ 0 ∧
        q.sourceBurst.toNat % q.sourceElemSize.toNat = 0 ∧ q.sourceBurst.toNat ≠ 0 ∧
        q.blockSize.toNat % q.sourceBurst.toNat = 0 := by
  simp [checkPeriph_eq, apply_ite (· = none)]

theorem checkM2m_ne_some_ok (q : SynthRequest) : checkM2m q ≠ some .ok := by
  rw [checkM2m_eq]
  split_ifs <;> simp

theorem checkPeriph_ne_some_ok (q : SynthRequest) : checkPeriph q ≠ some .ok := by
  rw [checkPeriph_eq]
  split_ifs <;> simp

theorem synthesize_memToMem_of_valid (o : CcountOverflow) {q : SynthRequest} (hdir : q.direction = 1) (h : checkM2m q = none) :
    synthesize o q = .ok (descriptor q .memToMem (countsM2m q)) := by
  rw [synthesize_memToMem o hdir, h, Option.elim_none]

theorem synthesize_peripheral_of_valid {o : CcountOverflow} {q : SynthRequest} (hdir : q.direction = 2 ∨ q.direction = 3)
    (h : checkPeriph q = none) (hc : q.blockSize.toNat / q.sourceBurst.toNat ≤ 65535 ∨ o = .truncate16) :
    synthesize o q = .ok (descriptor q (peripheralDirection q) (peripheralCounts q)) := by
  rw [synthesize_peripheral o hdir, h, countsPeriph_eq, if_pos hc, Option.elim_none, Option.elim_some]

/-- All that a synthesis can give: a status other than OK, or the descriptor of a valid request. -/
theorem synthesize_cases (o : CcountOverflow) (q : SynthRequest) :
    (∃ st, st ≠ .ok ∧ synthesize o q = .error st) ∨
      (q.direction = 1 ∧ checkM2m q = none ∧ synthesize o q = .ok (descriptor q .memToMem (countsM2m q))) ∨
      ((q.direction = 2 ∨ q.direction = 3) ∧ checkPeriph q = none ∧
        synthesize o q = .ok (descriptor q (peripheralDirection q) (peripheralCounts q))) := by
  by_cases h1 : q.direction = 1
  · cases hc : checkM2m q with
    | none => exact .inr (.inl ⟨h1, rfl, synthesize_memToMem_of_valid o h1 hc⟩)
    | some st =>
      exact .inl ⟨st, fun h => checkM2m_ne_some_ok q (h ▸ hc), by rw [synthesize_memToMem o h1, hc, Option.elim_some]⟩
  by_cases hp : q.direction = 2 ∨ q.direction = 3
  · cases hc : checkPeriph q with
    | none =>
      by_cases hn : q.blockSize.toNat / q.sourceBurst.toNat ≤ 65535 ∨ o = .truncate16
      · exact .inr (.inr ⟨hp, rfl, synthesize_peripheral_of_valid hp hc hn⟩)
      · exact .inl ⟨.unsupported, by decide, by
          rw [synthesize_peripheral o hp, hc, countsPeriph_eq, if_neg hn, Option.elim_none, Option.elim_none]⟩
    | some st =>
      exact .inl ⟨st, fun h => checkPeriph_ne_some_ok q (h ▸ hc), by rw [synthesize_peripheral o hp, hc, Option.elim_some]⟩
  · exact .inl ⟨.unsupportedDirection, by decide, synthesize_unsupported_direction o h1 hp⟩

/-! ### The addresses -/

/-- The request with other addresses. -/
def withAddresses (q : SynthRequest) (src dst : Word) : SynthRequest :=
  { q with sourceAddr := src, destAddr := dst }

/-- No check looks at the addresses: they are only copied into the descriptor (41_synthesizer.md R69). -/
theorem synthesize_withAddresses (o : CcountOverflow) (q : SynthRequest) (src dst : Word) :
    synthesize o (withAddresses q src dst) = (synthesize o q).map fun d => { d with srcAddr := src, destAddr := dst } := by
  have hm : checkM2m (withAddresses q src dst) = checkM2m q := rfl
  have hp : checkPeriph (withAddresses q src dst) = checkPeriph q := rfl
  have hc : countsPeriph o (withAddresses q src dst) = countsPeriph o q := rfl
  by_cases h1 : q.direction = 1
  · rw [synthesize_memToMem o h1, synthesize_memToMem o (q := withAddresses q src dst) h1, hm]
    cases checkM2m q <;> rfl
  by_cases h23 : q.direction = 2 ∨ q.direction = 3
  · rw [synthesize_peripheral o h23, synthesize_peripheral o (q := withAddresses q src dst) h23, hp, hc]
    cases checkPeriph q with
    | some st => rfl
    | none => cases countsPeriph o q <;> rfl
  · rw [synthesize_unsupported_direction o h1 h23, synthesize_unsupported_direction o (q := withAddresses q src dst) h1 h23]
    rfl

theorem synthResponse_status_withAddresses (o : CcountOverflow) (q : SynthRequest) (src dst : Word) :
    (synthResponse o (withAddresses q src dst)).status = (synthResponse o q).status := by
  rw [synthResponse, synthResponse, synthesize_withAddresses]
  cases synthesize o q <;> rfl

/-! ### The counts and the result words (41_synthesizer.md R70) -/

theorem toNat_countsM2m_b {q : SynthRequest} (h : checkM2m q = none) :
    (countsM2m q).b.toNat = q.blockSize.toNat / q.sourceElemSize.toNat := by
  obtain ⟨-, -, -, hle⟩ := (checkM2m_eq_none_iff q).1 h
  exact Nat.mod_eq_of_lt (Nat.lt_succ_of_le hle)

theorem toNat_peripheralCounts_b (q : SynthRequest) :
    (peripheralCounts q).b.toNat = q.sourceBurst.toNat / q.sourceElemSize.toNat :=
  Nat.mod_eq_of_lt ((Nat.div_le_self _ _).trans_lt q.sourceBurst.isLt)

theorem toNat_peripheralCounts_c (q : SynthRequest) :
    (peripheralCounts q).c.toNat = q.blockSize.toNat / q.sourceBurst.toNat % 65536 := rfl

/-- The low half of a stride is the count it was widened from. -/
theorem stride_lo (a : Half) : (a.setWidth 24).extractLsb' 0 16 = a := by
  ext i hi
  simp [hi, show i < 24 by omega]

/-- No stride reaches its extension (41_synthesizer.md R68). -/
theorem stride_ext (a : Half) : (a.setWidth 24).extractLsb' 16 8 = 0#8 := by
  ext i hi
  simp

section Words

variable (q : SynthRequest) (d : Direction) (k : Counts)

theorem toNat_w2_descriptor : (descriptor q d k).words.w2.toNat = k.a.toNat + 65536 * k.b.toNat := toNat_pack16 _ _

theorem toNat_w3_descriptor : (descriptor q d k).words.w3.toNat = k.c.toNat + 65536 * k.brld.toNat := toNat_pack16 _ _

theorem toNat_w4_memToMem : (descriptor q .memToMem k).words.w4.toNat = k.a.toNat + 65536 * k.a.toNat := by
  simp [Descriptor.words, descriptor, srcStrides, dstStrides, stride_lo, toNat_pack16]

theorem toNat_w4_memToPeripheral : (descriptor q .memToPeripheral k).words.w4.toNat = k.a.toNat := by
  simp [Descriptor.words, descriptor, srcStrides, dstStrides, stride_lo, toNat_pack16]

theorem toNat_w4_peripheralToMemory : (descriptor q .peripheralToMemory k).words.w4.toNat = 65536 * k.a.toNat := by
  simp [Descriptor.words, descriptor, srcStrides, dstStrides, stride_lo, toNat_pack16]

theorem toNat_w5_memToMem : (descriptor q .memToMem k).words.w5.toNat = k.a.toNat + 65536 * k.a.toNat := toNat_pack16 _ _

theorem toNat_w5_memToPeripheral : (descriptor q .memToPeripheral k).words.w5.toNat = q.sourceBurst.toNat :=
  toNat_pack16 _ _

theorem toNat_w5_peripheralToMemory : (descriptor q .peripheralToMemory k).words.w5.toNat = 65536 * q.sourceBurst.toNat :=
  (toNat_pack16 _ _).trans (Nat.zero_add _)

theorem w6_descriptor : (descriptor q d k).words.w6 = 0xFFFF0000 := by
  cases d <;> simp [Descriptor.words, descriptor, srcStrides, dstStrides, stride_ext] <;> decide

theorem toNat_w7_descriptor : (descriptor q d k).words.w7.toNat = 0x100004 + 4096 * q.completionCode.toNat :=
  toNat_optionsWord _

/-- 41_synthesizer.md R72, property 2. -/
theorem w3_div_eq_w2_div (h : k.brld = k.b) :
    (descriptor q d k).words.w3.toNat / 65536 = (descriptor q d k).words.w2.toNat / 65536 := by
  have ha := k.a.isLt
  have hc := k.c.isLt
  rw [toNat_w2_descriptor, toNat_w3_descriptor, h]
  omega

/-- The three counts as read from the result words. -/
theorem product_of_words :
    ((descriptor q d k).words.w2.toNat % 65536) * ((descriptor q d k).words.w2.toNat / 65536) *
      ((descriptor q d k).words.w3.toNat % 65536) = k.a.toNat * k.b.toNat * k.c.toNat := by
  have ha := k.a.isLt
  have hc := k.c.isLt
  rw [toNat_w2_descriptor, toNat_w3_descriptor]
  congr 2 <;> omega

end Words

/-- 41_synthesizer.md R72, property 1, MemToMem. -/
theorem product_countsM2m {q : SynthRequest} (h : checkM2m q = none) :
    (countsM2m q).a.toNat * (countsM2m q).b.toNat * (countsM2m q).c.toNat = q.blockSize.toNat := by
  obtain ⟨-, -, hmul, -⟩ := (checkM2m_eq_none_iff q).1 h
  rw [toNat_countsM2m_b h]
  exact (Nat.mul_one _).trans (Nat.mul_div_cancel' (Nat.dvd_of_mod_eq_zero hmul))

/-- 41_synthesizer.md R72, property 1, for a peripheral request whose `c_count` is not truncated. -/
theorem product_peripheralCounts {q : SynthRequest} (h : checkPeriph q = none)
    (hc : q.blockSize.toNat / q.sourceBurst.toNat ≤ 65535) :
    (peripheralCounts q).a.toNat * (peripheralCounts q).b.toNat * (peripheralCounts q).c.toNat = q.blockSize.toNat := by
  obtain ⟨-, -, hburst, -, hblock⟩ := (checkPeriph_eq_none_iff q).1 h
  calc (peripheralCounts q).a.toNat * (peripheralCounts q).b.toNat * (peripheralCounts q).c.toNat
      = q.sourceElemSize.toNat * (q.sourceBurst.toNat / q.sourceElemSize.toNat) *
          (q.blockSize.toNat / q.sourceBurst.toNat) := by
        rw [toNat_peripheralCounts_b, toNat_peripheralCounts_c, Nat.mod_eq_of_lt (Nat.lt_succ_of_le hc)]
        rfl
    _ = q.sourceBurst.toNat * (q.blockSize.toNat / q.sourceBurst.toNat) := by
        rw [Nat.mul_div_cancel' (Nat.dvd_of_mod_eq_zero hburst)]
    _ = q.blockSize.toNat := Nat.mul_div_cancel' (Nat.dvd_of_mod_eq_zero hblock)

/-! ### The obligations of 41_synthesizer.md -/

/-- Settles O18: the request passes `checkM2m`, and the words of its descriptor are read one by one. -/
theorem synthMemToMemDescriptor : Obligations.SynthMemToMemDescriptor := by
  intro s q hdir hsize hne hmul hle
  have hc : checkM2m q = none := (checkM2m_eq_none_iff q).2 ⟨hsize, BitVec.toNat_ne.1 hne, hmul, hle⟩
  have hb := toNat_countsM2m_b hc
  refine ⟨(descriptor q .memToMem (countsM2m q)).words, ?_, rfl, rfl, ?_, ?_, toNat_w4_memToMem _ _, toNat_w5_memToMem _ _,
    w6_descriptor _ _ _, toNat_w7_descriptor _ _ _⟩
  · rw [exec_synth, synthResponse_of_ok (synthesize_memToMem_of_valid _ hdir hc)]
  · rw [toNat_w2_descriptor, hb]
    rfl
  · rw [toNat_w3_descriptor, ← hb]
    rfl

/-- Settles O19: the request passes `checkPeriph` and R67 keeps its `c_count`; the strides depend on the direction. -/
theorem synthPeripheralDescriptor : Obligations.SynthPeripheralDescriptor := by
  intro s q hdir hsize hburst hne hbne hmul hbmul hle
  have hc : checkPeriph q = none :=
    (checkPeriph_eq_none_iff q).2 ⟨⟨hsize, hburst⟩, BitVec.toNat_ne.1 hne, hmul, BitVec.toNat_ne.1 hbne, hbmul⟩
  have hb := toNat_peripheralCounts_b q
  refine ⟨(descriptor q (peripheralDirection q) (peripheralCounts q)).words, ?_, rfl, rfl, ?_, ?_, ?_, ?_,
    w6_descriptor _ _ _, toNat_w7_descriptor _ _ _⟩
  · rw [exec_synth, synthResponse_of_ok (synthesize_peripheral_of_valid hdir hc hle)]
  · rw [toNat_w2_descriptor, hb]
    rfl
  · rw [toNat_w3_descriptor, ← hb]
    rfl
  · intro h2
    have hd : peripheralDirection q = .memToPeripheral := if_pos h2
    rw [hd]
    exact ⟨toNat_w4_memToPeripheral _ _, toNat_w5_memToPeripheral _ _⟩
  · intro h3
    have hd : peripheralDirection q = .peripheralToMemory := if_neg (by rw [h3]; decide)
    rw [hd]
    exact ⟨toNat_w4_peripheralToMemory _ _, toNat_w5_peripheralToMemory _ _⟩

/-- Settles O20, one case per failing check in the order of 41_synthesizer.md R61. -/
theorem synthReportsTheFirstFailure : Obligations.SynthReportsTheFirstFailure := by
  intro s q st ses sb bs periph sizesDiffer burstsDiffer h
  suffices hs : synthesize s.cfg.ccountOverflow q = .error st by rw [exec_synth, synthResponse_of_error hs]
  obtain ⟨rfl, h1, hp⟩ | ⟨rfl, h1, hsize⟩ | ⟨rfl, hp, hdiffer⟩ | ⟨rfl, h1, hsize, hbad⟩ | ⟨rfl, hp, hsize, hburst, hbad⟩ |
    ⟨rfl, hp, hsize, hburst, hlarge, hreject⟩ := h
  · exact synthesize_unsupported_direction _ h1 hp
  · rw [synthesize_memToMem _ h1, checkM2m_eq, if_pos hsize, Option.elim_some]
  · rw [synthesize_peripheral _ hp, checkPeriph_eq, if_pos hdiffer, Option.elim_some]
  · rw [synthesize_memToMem _ h1, checkM2m_eq, if_neg hsize, if_pos hbad, Option.elim_some]
  · rw [synthesize_peripheral _ hp, checkPeriph_eq, if_neg (not_or.2 ⟨hsize, hburst⟩), if_pos hbad, Option.elim_some]
  · have hnone : countsPeriph s.cfg.ccountOverflow q = none := by
      rw [countsPeriph_eq, hreject]
      exact if_neg (not_or.2 ⟨Nat.not_le.2 hlarge, by decide⟩)
    rw [synthesize_peripheral _ hp, hnone, checkPeriph_eq, if_neg (not_or.2 ⟨hsize, hburst⟩)]
    split_ifs <;> rfl

/-- Settles O21: a response of status OK is the descriptor of a valid request, whose counts multiply to the block size. -/
theorem synthCountsMultiplyToTheBlockSize : Obligations.SynthCountsMultiplyToTheBlockSize := by
  intro s t q h hok
  rw [resp_of_exec_synth h] at hok ⊢
  obtain ⟨st, hne, he⟩ | ⟨-, hc, hs⟩ | ⟨hp, hc, hs⟩ := synthesize_cases s.cfg.ccountOverflow q
  · rw [synthResponse_of_error he] at hok
    exact absurd hok hne
  · rw [synthResponse_of_ok hs]
    exact ⟨w3_div_eq_w2_div _ _ _ rfl, fun _ => (product_of_words _ _ _).trans (product_countsM2m hc)⟩
  · rw [synthResponse_of_ok hs]
    refine ⟨w3_div_eq_w2_div _ _ _ rfl, fun hle => (product_of_words _ _ _).trans (product_peripheralCounts hc ?_)⟩
    exact hle.resolve_left fun h1 => absurd hp (by rw [h1]; decide)

/-- Settles O22: in both states the response is `synthResponse` of the request and of the common `CCOUNT_OVERFLOW`. -/
theorem synthIsPureButForTheWarning : Obligations.SynthIsPureButForTheWarning := by
  intro s s' q ho
  refine ⟨synthResponse s.cfg.ccountOverflow q, exec_synth s q, ho ▸ exec_synth s' q, synthResponse_res_of_status_ne_ok, ?_⟩
  intro src dst t h
  rw [resp_of_exec_synth h]
  exact synthResponse_status_withAddresses _ q src dst

end Sys2Proof.Machine

namespace Sys2Proof.Machine

/-! # The slot table, the enable mask and the dispatcher (42_dispatcher.md)

Each slot and enable command has one equation per outcome, and what it leaves alone is one lemma for the slot table and one for
the enable mask. A dispatcher step is one of D_ENTRY, D_BIT and D_EXIT; an invocation is D_ENTRY, one D_BIT for each code of the
snapshot by induction on the list of these codes, and D_EXIT (`dispatcherSteps_invocation`). -/

/-! ## The channel slot table (R73 to R76) -/

/-- Of the two states, nothing but slot `c` and the response differs. -/
def ChangesOnlySlot (c : Nat) (s t : State) : Prop :=
  (∀ j, j ≠ c → t.slotAt j = s.slotAt j) ∧ KeepsBitmaps s t ∧ KeepsEvents s t ∧ KeepsDispatcher s t ∧ KeepsEnvironment s t

/-- A channel below CH_COUNT has a slot (10_state.md R10). -/
theorem State.Inv.lt_chs_length {s : State} {c : Nat} (hs : s.Inv) (hc : c < s.cfg.chCount) : c < s.chs.length := by
  rwa [hs.chs_length]

theorem slotAt_setSlot_same {s : State} {c : Nat} (h : c < s.chs.length) (v : ChannelSlot) :
    (s.setSlot c v).slotAt c = v := by
  rw [slotAt_setSlot _ _ _ _ h, if_pos rfl]

theorem changesOnlySlot_respond_setSlot {s : State} {c : Nat} (h : c < s.chs.length) (v : ChannelSlot) (st : Status)
    (r : Words8) : ChangesOnlySlot c s ((s.setSlot c v).respond st r) := by
  refine ⟨fun j hj => ?_, ⟨rfl, rfl, rfl⟩, rfl, ⟨rfl, rfl, rfl, rfl⟩, keepsEnvironment_refl s⟩
  rw [slotAt_respond, slotAt_setSlot _ _ _ _ h, if_neg hj]

section Outcomes

variable {s : State} {c : Word}

theorem exec_slotRead_of_ge (h : s.cfg.chCount ≤ c.toNat) : exec (.slotRead c) s = fail .invalidChannel s := if_pos h

theorem exec_slotRead_of_lt (h : c.toNat < s.cfg.chCount) :
    exec (.slotRead c) s = ok { w0 := (s.slotAt c.toNat).word } s :=
  if_neg (Nat.not_le.2 h)

theorem exec_slotWrite_of_ge {dir : Direction} {alloc cben : Bool} (h : s.cfg.chCount ≤ c.toNat) :
    exec (.slotWrite c dir alloc cben) s = fail .invalidChannel s :=
  if_pos h

theorem exec_slotWrite_of_lt {dir : Direction} {alloc cben : Bool} (h : c.toNat < s.cfg.chCount) :
    exec (.slotWrite c dir alloc cben) s =
      ok Words8.zero (s.setSlot c.toNat { dir := dir, alloc := alloc, cben := cben }) :=
  if_neg (Nat.not_le.2 h)

theorem exec_slotTas_of_ge (h : s.cfg.chCount ≤ c.toNat) : exec (.slotTas c) s = fail .invalidChannel s := if_pos h

theorem exec_slotTas_of_lt (h : c.toNat < s.cfg.chCount) :
    exec (.slotTas c) s =
      ok { w0 := bitWord (s.slotAt c.toNat).alloc } (s.setSlot c.toNat { s.slotAt c.toNat with alloc := true }) :=
  if_neg (Nat.not_le.2 h)

theorem exec_slotClear_of_ge (h : s.cfg.chCount ≤ c.toNat) : exec (.slotClear c) s = fail .invalidChannel s := if_pos h

theorem exec_slotClear_of_lt (h : c.toNat < s.cfg.chCount) :
    exec (.slotClear c) s = ok Words8.zero (s.setSlot c.toNat ChannelSlot.clear) :=
  if_neg (Nat.not_le.2 h)

end Outcomes

/-- Settles O23: the result word is the slot's word, whose three fields do not overlap. -/
theorem slotReadPacksTheSlot : Obligations.SlotReadPacksTheSlot := by
  intro s c
  exact ⟨exec_slotRead_of_ge, fun hc => ⟨_, exec_slotRead_of_lt hc, toNat_slotWord _⟩⟩

/-- Settles O24: an accepted SLOT_WRITE is one `setSlot`. -/
theorem slotWriteStoresAllThreeFields : Obligations.SlotWriteStoresAllThreeFields := by
  intro s c dir alloc cben hs
  refine ⟨exec_slotWrite_of_ge, fun hc => ?_⟩
  have hlen := hs.lt_chs_length hc
  exact ⟨_, exec_slotWrite_of_lt hc, rfl, slotAt_setSlot_same hlen _, changesOnlySlot_respond_setSlot hlen ..⟩

/-- Settles O25: an accepted SLOT_TAS is one `setSlot` of the old slot with `ALLOC` set. -/
theorem slotTasReturnsTheOldFlag : Obligations.SlotTasReturnsTheOldFlag := by
  intro s c hs
  refine ⟨exec_slotTas_of_ge, fun hc => ?_⟩
  have hlen := hs.lt_chs_length hc
  have hslot := slotAt_setSlot_same hlen { s.slotAt c.toNat with alloc := true }
  refine ⟨_, exec_slotTas_of_lt hc, ?_, (congrArg ChannelSlot.alloc hslot :), (congrArg ChannelSlot.dir hslot :),
    (congrArg ChannelSlot.cben hslot :), changesOnlySlot_respond_setSlot hlen ..⟩
  rw [State.respond_resp, bitWord_eq]

/-- Settles O26: an accepted SLOT_CLEAR is one `setSlot` of the reset value. -/
theorem slotClearResetsTheSlot : Obligations.SlotClearResetsTheSlot := by
  intro s c hs
  refine ⟨exec_slotClear_of_ge, fun hc => ?_⟩
  have hlen := hs.lt_chs_length hc
  exact ⟨_, exec_slotClear_of_lt hc, rfl, slotAt_setSlot_same hlen _, changesOnlySlot_respond_setSlot hlen ..⟩

/-! ## The enable mask (R77 to R79) -/

section Outcomes

variable {s : State} {i : Word}

theorem exec_ienSet_of_ge (h : 64 ≤ i.toNat) : exec (.ienSet i) s = fail .indexRange s := if_pos h

theorem exec_ienSet_of_lt (h : i.toNat < 64) :
    exec (.ienSet i) s =
      ok Words8.zero { s with ien := maskSet s.ien i.toNat, gs := gsOnEnable s.gs s.cv i.toNat } :=
  if_neg (Nat.not_le.2 h)

theorem exec_ienClr_of_ge (h : 64 ≤ i.toNat) : exec (.ienClr i) s = fail .indexRange s := if_pos h

theorem exec_ienClr_of_lt (h : i.toNat < 64) :
    exec (.ienClr i) s = ok Words8.zero { s with ien := maskClear s.ien i.toNat } :=
  if_neg (Nat.not_le.2 h)

end Outcomes

/-- Settles O27: an accepted IEN_SET sets one bit of the mask and raises `GS` by `gsOnEnable`. -/
theorem ienSetEnablesAndRaises : Obligations.IenSetEnablesAndRaises := by
  intro s i
  refine ⟨exec_ienSet_of_ge, fun hi => ⟨_, exec_ienSet_of_lt hi, rfl, fun j hj => getLsbD_maskSet _ _ _ hj, ?_⟩⟩
  exact ⟨rfl, rfl, rfl, ⟨rfl, rfl, rfl⟩, rfl, rfl, keepsEnvironment_refl s⟩

/-- Settles O28: an accepted IEN_CLR clears one bit of the mask. -/
theorem ienClrDisables : Obligations.IenClrDisables := by
  intro s i
  refine ⟨exec_ienClr_of_ge, fun hi => ⟨_, exec_ienClr_of_lt hi, rfl, fun j _ => getLsbD_maskClear _ _ _, ?_⟩⟩
  exact ⟨rfl, rfl, rfl, ⟨rfl, rfl, rfl⟩, rfl, rfl, keepsEnvironment_refl s⟩

/-- Settles O29: the two words of a 64-bit quantity are its remainder and its quotient by 2^32. -/
theorem ienReadReturnsOneWord : Obligations.IenReadReturnsOneWord :=
  fun s => ⟨⟨_, rfl, toNat_loWord s.ien⟩, ⟨_, rfl, toNat_hiWord s.ien⟩⟩

/-! ## One dispatcher step (R82 to R86) -/

theorem dispatcherStep_of_gs {s : State} (hd : s.dstate = .idle) (hgs : s.gs = true) : dispatcherStep s = dEntry s := by
  simp [dispatcherStep, hd, hgs]

theorem dispatcherStep_of_not_gs {s : State} (hd : s.dstate = .idle) (hgs : s.gs = false) : dispatcherStep s = s := by
  simp [dispatcherStep, hd, hgs]

theorem dispatcherStep_of_snap_eq_zero {s : State} (hd : s.dstate = .scanning) (hsnap : s.snap = 0) :
    dispatcherStep s = dExit s := by
  simp [dispatcherStep, hd, hsnap]

theorem dispatcherStep_of_lowestSet {s : State} {i : Nat} (hd : s.dstate = .scanning) (hi : lowestSet s.snap = some i) :
    dispatcherStep s = dBitWith i (s.live (Fin.ofNat 64 i)) s := by
  have hsnap : s.snap ≠ 0 := fun h => nomatch hi.symm.trans ((lowestSet_eq_none _).2 h)
  simp only [dispatcherStep, dBit, hd, hsnap, hi, if_false]

/-- The events of a D_BIT of code `i` with the live counts `l`: the warning, the callback or none (R84). -/
def bitEvents (s : State) (i : Nat) (l : LiveCounts) : List Event :=
  if s.cfg.chCount ≤ i then [.unmappedCode i]
  else if (s.slotAt i).cben then [.callback i (completionStatus l)] else []

/-- The number of draws after a D_BIT of code `i`: one more if the code has a channel (R84). -/
def bitDraws (s : State) (i : Nat) : Nat := if s.cfg.chCount ≤ i then s.draws else s.draws + 1

theorem handleCode_eq (i : Nat) (l : LiveCounts) (s : State) :
    handleCode i l s =
      { s with evt := s.evt ++ if (s.slotAt i).cben then [.callback i (completionStatus l)] else [] } := by
  unfold handleCode
  split
  · rfl
  · rw [List.append_nil]

/-- D_BIT in full: `dBitWith_eq` with the events and the draws named. -/
theorem dBitWith_eq_bitEvents (i : Nat) (l : LiveCounts) (s : State) :
    dBitWith i l s =
      { s with
        cv := maskClear s.cv i, snap := maskClear s.snap i, evt := s.evt ++ bitEvents s i l, draws := bitDraws s i } := by
  unfold dBitWith bitEvents bitDraws
  split
  · rfl
  · exact handleCode_eq i l (acknowledge i s).drawn

theorem gsReevaluated_iff (cv ien : CodeMask) :
    gsReevaluated cv ien = true ↔ ∃ i, cv.getLsbD i = true ∧ ien.getLsbD i = true :=
  decide_eq_true_iff.trans (and_ne_zero_iff cv ien)

theorem gsReevaluated_zero (ien : CodeMask) : gsReevaluated 0 ien = false := by simp [gsReevaluated]

theorem step_push_dispatcher {s : State} (h : s.cfg.Valid) : step (s.push .dispatcher) = .next (dispatcherStep s) :=
  step_push s _ h

/-- Settles O33: the step is D_ENTRY. -/
theorem interruptEntryTakesTheSnapshot : Obligations.InterruptEntryTakesTheSnapshot := by
  intro s hcfg hd hgs
  rw [step_push_dispatcher hcfg, dispatcherStep_of_gs hd hgs, dEntry]

/-- Settles O34: the step is D_BIT of the lowest code of the snapshot. -/
theorem dispatcherBitAcknowledgesTheLowestCode : Obligations.DispatcherBitAcknowledgesTheLowestCode := by
  intro s i hs hd hi hbit hlow
  have hstep := dispatcherStep_of_lowestSet hd ((lowestSet_eq_some _ _).2 ⟨hi, hbit, hlow⟩)
  rw [dBitWith_eq_bitEvents] at hstep
  refine ⟨_, (step_push_dispatcher hs.cfg_valid).trans (congrArg _ hstep), getLsbD_maskClear s.cv i,
    getLsbD_maskClear s.snap i, hd, rfl, rfl, fun hc => ?_, fun hc => ?_, ⟨rfl, rfl, rfl⟩, rfl, rfl, ⟨rfl, rfl, rfl, rfl⟩,
    rfl, rfl⟩
  · simp [bitEvents, bitDraws, hc]
  · have hc' : ¬ s.cfg.chCount ≤ i := Nat.not_le.2 hc
    refine ⟨if_neg hc', fun hcben => ?_, fun hcben => ?_⟩
    · simp [bitEvents, hc', hcben]
    · simp [bitEvents, hc', hcben, completionStatus, LiveCounts.pendingLength]

/-- Settles O35: the step is D_EXIT, and a code in both masks is a bit of their conjunction. -/
theorem interruptReturnReevaluatesOnce : Obligations.InterruptReturnReevaluatesOnce := by
  intro s hcfg hd hsnap
  refine ⟨_, ?_, gsReevaluated_iff s.cv s.ien⟩
  rw [step_push_dispatcher hcfg, dispatcherStep_of_snap_eq_zero hd hsnap, dExit]

/-- Settles O36: the step is `eComplete`. -/
theorem completionSetsItsBit : Obligations.CompletionSetsItsBit := by
  intro s i hcfg
  refine ⟨_, step_push s (.complete i) hcfg, fun j hj => getLsbD_maskSet _ _ _ hj, ?_⟩
  exact ⟨rfl, rfl, rfl, rfl, ⟨rfl, rfl, rfl⟩, rfl, rfl, rfl, ⟨rfl, rfl, rfl, rfl⟩, rfl, rfl, rfl⟩

/-! ## What the dispatcher does not see (R91) -/

/-- Slot tables with the same `CBEN` bits have the same `CBEN` at every channel, one without a slot included. -/
theorem cben_slotAt_of_map_eq {s t : State} (h : t.chs.map (fun c => c.cben) = s.chs.map (fun c => c.cben)) (i : Nat) :
    (t.slotAt i).cben = (s.slotAt i).cben := by
  have hmap : ∀ u : State, (u.slotAt i).cben = (u.chs.map (fun c => c.cben)).getD i ChannelSlot.clear.cben :=
    fun u => (List.getD_map ..).symm
  rw [hmap, hmap, h]

/-- What the dispatcher neither reads nor writes, replaced: the bitmaps, the slot table, the response, the engine (R91). -/
def State.replaceUnread (s : State) (chan cc slot : List Bool) (chs : List ChannelSlot) (r : Response) (e : Engine) : State :=
  { s with bmChan := chan, bmCc := cc, bmSlot := slot, chs := chs, resp := r, engine := e }

section ReplaceUnread

variable {s : State} {chs : List ChannelSlot}

theorem bitEvents_replaceUnread (chan cc slot : List Bool) (r : Response) (e : Engine)
    (h : chs.map (fun c => c.cben) = s.chs.map (fun c => c.cben)) (i : Nat) (l : LiveCounts) :
    bitEvents (s.replaceUnread chan cc slot chs r e) i l = bitEvents s i l := by
  have hcben : ((s.replaceUnread chan cc slot chs r e).slotAt i).cben = (s.slotAt i).cben := cben_slotAt_of_map_eq h i
  rw [bitEvents, hcben]
  rfl

/-- Of what is replaced the dispatcher's steps read `CBEN` alone, and that in D_BIT. -/
theorem dispatcherStep_replaceUnread (chan cc slot : List Bool) (r : Response) (e : Engine)
    (h : chs.map (fun c => c.cben) = s.chs.map (fun c => c.cben)) :
    dispatcherStep (s.replaceUnread chan cc slot chs r e) = (dispatcherStep s).replaceUnread chan cc slot chs r e := by
  cases hd : s.dstate with
  | idle =>
    cases hgs : s.gs with
    | false =>
      rw [dispatcherStep_of_not_gs hd hgs]
      exact dispatcherStep_of_not_gs hd hgs
    | true =>
      rw [dispatcherStep_of_gs hd hgs]
      exact dispatcherStep_of_gs hd hgs
  | scanning =>
    cases hi : lowestSet s.snap with
    | none =>
      have hsnap := (lowestSet_eq_none _).1 hi
      rw [dispatcherStep_of_snap_eq_zero hd hsnap]
      exact dispatcherStep_of_snap_eq_zero hd hsnap
    | some i =>
      rw [dispatcherStep_of_lowestSet hd hi, dBitWith_eq_bitEvents, ← bitEvents_replaceUnread chan cc slot r e h]
      exact (dispatcherStep_of_lowestSet (s := s.replaceUnread chan cc slot chs r e) hd hi).trans
        (dBitWith_eq_bitEvents ..)

end ReplaceUnread

/-- Settles O37: what the dispatcher does not read can be replaced before or after its step. -/
theorem dispatcherIgnoresAllocatorAndDirection : Obligations.DispatcherIgnoresAllocatorAndDirection :=
  fun _ chan cc slot _ r e h => dispatcherStep_replaceUnread chan cc slot r e h

/-! ## The codes of a mask -/

theorem nodup_setCodes (m : CodeMask) : (setCodes m).Nodup := List.nodup_range.filter _

theorem length_setCodes_le (m : CodeMask) : (setCodes m).length ≤ 64 :=
  (List.length_filter_le ..).trans_eq List.length_range

theorem head?_setCodes (m : CodeMask) : (setCodes m).head? = lowestSet m := List.head?_filter ..

theorem setCodes_maskClear (m : CodeMask) (i : Nat) : setCodes (maskClear m i) = (setCodes m).filter (· ≠ i) := by
  simp only [setCodes, List.filter_filter, getLsbD_maskClear, Bool.and_comm]

theorem eq_zero_of_setCodes_eq_nil {m : CodeMask} (h : setCodes m = []) : m = 0 := by
  rw [← lowestSet_eq_none, ← head?_setCodes, h, List.head?_nil]

theorem lowestSet_of_setCodes_eq_cons {m : CodeMask} {i : Nat} {is : List Nat} (h : setCodes m = i :: is) :
    lowestSet m = some i := by
  rw [← head?_setCodes, h, List.head?_cons]

/-- Clearing the first code of a mask leaves the others. -/
theorem setCodes_maskClear_of_cons {m : CodeMask} {i : Nat} {is : List Nat} (h : setCodes m = i :: is) :
    setCodes (maskClear m i) = is := by
  have hnodup := nodup_setCodes m
  rw [h, List.nodup_cons] at hnodup
  rw [setCodes_maskClear, h, List.filter_cons_of_neg (by simp), List.filter_eq_self]
  intro j hj
  exact decide_eq_true fun e => hnodup.1 (e ▸ hj)

/-- A code cleared in both masks is no code of their difference. -/
theorem maskClear_and_not_maskClear {m n : CodeMask} {i : Nat} (h : n.getLsbD i = true) :
    maskClear m i &&& ~~~maskClear n i = m &&& ~~~n := by
  refine BitVec.eq_of_getLsbD_eq fun j hj => ?_
  simp only [BitVec.getLsbD_and, BitVec.getLsbD_not, getLsbD_maskClear]
  by_cases hji : j = i
  · simp [hji, h]
  · simp [hji]

/-! ## The scan and the invocation (R80, R88, R89) -/

theorem dispatcherSteps_add (m n : Nat) (s : State) :
    dispatcherSteps (m + n) s = dispatcherSteps n (dispatcherSteps m s) := by
  induction m generalizing s with
  | zero => rw [Nat.zero_add, dispatcherSteps]
  | succ m ih => rw [Nat.succ_add, dispatcherSteps, ih, dispatcherSteps]

/-- A D_BIT of code `i` emits an event: it has no channel, or a callback is registered (R84). -/
def State.reports (s : State) (i : Nat) : Bool := decide (s.cfg.chCount ≤ i) || (s.slotAt i).cben

theorem map_code?_bitEvents (s : State) (i : Nat) (l : LiveCounts) :
    (bitEvents s i l).map Event.code? = if s.reports i then [some i] else [] := by
  unfold bitEvents State.reports
  by_cases hi : s.cfg.chCount ≤ i
  · simp [hi, Event.code?]
  · cases (s.slotAt i).cben <;> simp [hi, Event.code?]

/-- The scan of the codes that `SNAP` still holds, one D_BIT each: they are acknowledged, and the events are those of the codes
that report, in the list's order. -/
theorem dispatcherSteps_scan (s : State) (hd : s.dstate = .scanning) :
    ∃ evs n,
      dispatcherSteps (setCodes s.snap).length s =
        { s with cv := s.cv &&& ~~~s.snap, snap := 0, evt := s.evt ++ evs, draws := n } ∧
      evs.map Event.code? = ((setCodes s.snap).filter s.reports).map some := by
  induction hcodes : setCodes s.snap generalizing s with
  | nil =>
    have hsnap := eq_zero_of_setCodes_eq_nil hcodes
    refine ⟨[], s.draws, ?_, rfl⟩
    have hcv : s.cv &&& ~~~s.snap = s.cv := by
      rw [hsnap, show ~~~(0 : CodeMask) = BitVec.allOnes 64 from rfl, BitVec.and_allOnes]
    rw [List.length_nil, dispatcherSteps, List.append_nil, hcv, ← hsnap]
  | cons i is ih =>
    have hlow := lowestSet_of_setCodes_eq_cons hcodes
    obtain ⟨-, hbit, -⟩ := (lowestSet_eq_some _ _).1 hlow
    have hstep := (dispatcherStep_of_lowestSet hd hlow).trans (dBitWith_eq_bitEvents ..)
    have hreports : (dispatcherStep s).reports = s.reports := by
      rw [hstep]
      rfl
    obtain ⟨evs, n, hsteps, hevs⟩ := ih (dispatcherStep s) (by rw [hstep]; exact hd)
      (by rw [hstep]; exact setCodes_maskClear_of_cons hcodes)
    refine ⟨bitEvents s i (s.live (Fin.ofNat 64 i)) ++ evs, n, ?_, ?_⟩
    · rw [List.length_cons, dispatcherSteps, hsteps, hstep, maskClear_and_not_maskClear hbit, List.append_assoc]
    · rw [List.map_append, map_code?_bitEvents, hevs, hreports, List.filter_cons]
      split <;> rfl

/-- Until the scan is through, the dispatcher stays Scanning. -/
theorem dispatcherSteps_scanning (k : Nat) (s : State) (hd : s.dstate = .scanning) (hk : k ≤ (setCodes s.snap).length) :
    (dispatcherSteps k s).dstate = .scanning := by
  induction k generalizing s with
  | zero => exact hd
  | succ k ih =>
    cases hcodes : setCodes s.snap with
    | nil => simp [hcodes] at hk
    | cons i is =>
      have hlow := lowestSet_of_setCodes_eq_cons hcodes
      rw [dispatcherSteps, dispatcherStep_of_lowestSet hd hlow, dBitWith_eq_bitEvents]
      refine ih _ hd ?_
      rw [setCodes_maskClear_of_cons hcodes]
      rw [hcodes] at hk
      exact Nat.le_of_succ_le_succ hk

/-- One invocation alone: every code pending at entry is acknowledged, and the events are those of the codes that report. With
`CV` empty at D_EXIT, `GS` is cleared. -/
theorem dispatcherSteps_invocation (s : State) (hd : s.dstate = .idle) (hgs : s.gs = true) :
    ∃ evs n,
      dispatcherSteps ((setCodes s.cv).length + 2) s =
        { s with gs := false, snap := 0, cv := 0, evt := s.evt ++ evs, draws := n } ∧
      evs.map Event.code? = ((setCodes s.cv).filter s.reports).map some := by
  obtain ⟨evs, n, hscan, hevs⟩ := dispatcherSteps_scan (dEntry s) rfl
  refine ⟨evs, n, ?_, hevs⟩
  have hcv : (dEntry s).cv &&& ~~~(dEntry s).snap = 0 := BitVec.and_not_self s.cv
  rw [hcv] at hscan
  rw [dispatcherSteps, dispatcherStep_of_gs hd hgs, dispatcherSteps_add _ 1]
  refine (congrArg (dispatcherSteps 1) hscan).trans ?_
  rw [dispatcherSteps, dispatcherSteps, dispatcherStep_of_snap_eq_zero rfl rfl, dExit, gsReevaluated_zero, hd]
  rfl

/-- Settles O39: D_ENTRY, the scan of at most 64 codes, D_EXIT. -/
theorem invocationIsEntryBitsExit : Obligations.InvocationIsEntryBitsExit := by
  intro s hd hgs
  refine ⟨Nat.add_le_add_right (length_setCodes_le s.cv) 2, fun k hk₁ hk => ?_, ?_⟩
  · obtain ⟨k, rfl⟩ := Nat.exists_eq_add_of_le' hk₁
    rw [dispatcherSteps, dispatcherStep_of_gs hd hgs]
    exact dispatcherSteps_scanning k _ rfl (Nat.le_of_succ_le_succ hk)
  · obtain ⟨evs, n, h, -⟩ := dispatcherSteps_invocation s hd hgs
    rw [h, hd]

/-- Settles O40: what `dispatcherSteps_invocation` says of `EVT` and `CV`. -/
theorem invocationHandlesEveryCodeOnceInOrder : Obligations.InvocationHandlesEveryCodeOnceInOrder := by
  intro s hd hgs
  obtain ⟨evs, n, h, hevs⟩ := dispatcherSteps_invocation s hd hgs
  rw [h]
  exact ⟨evs, rfl, rfl, hevs⟩

end Sys2Proof.Machine

namespace Sys2Proof.Machine

/-! # The system commands (43_system.md)

A decoded request runs its command as one step. CFG_READ looks its selector up in `parameterNumbers`, the list of R94 as numbers
(`map_toNat_read`); DISP_READ shows two flags as one word and the snapshot as two. -/

/-! ## The step of a decoded request (R93) -/

theorem port_of_command {r : Request} {i : Instr} (h : decode r = .command i) (s : State) : port r s = exec i s := by
  rw [port, h]

/-- Settles O7: the step takes the pushed move, and the port runs the decoded command. -/
theorem stepRunsTheDecodedCommand : Obligations.StepRunsTheDecodedCommand :=
  fun s r _ hs hr => (step_push s (.command r) hs).trans (port_of_command hr s)

/-! ## Two flags in a word -/

theorem toNat_bitWord_or_shiftLeft_one (a b : Bool) : (bitWord a ||| bitWord b <<< 1).toNat = a.toNat + 2 * b.toNat := by
  cases a <;> cases b <;> decide

theorem toNat_openChoices (p : Params) :
    p.openChoices.toNat =
      (if p.claimReversed = .invalid then 1 else 0) + (if p.ccountOverflow = .reject then 2 else 0) := by
  rw [Params.openChoices, toNat_bitWord_or_shiftLeft_one, Bool.toNat, Bool.toNat, Bool.cond_decide, Bool.cond_decide, mul_ite]

/-! ## CFG_READ (R94) -/

/-- The parameters in the order of CFG_READ's selectors, as numbers (43_system.md R94). -/
def parameterNumbers (p : Params) : List Nat :=
  [p.chCount, p.slotMax, p.capCh, p.capCc, p.capSlot, 32, 64, 0xFFFF,
    (if p.claimReversed = .invalid then 1 else 0) + (if p.ccountOverflow = .reject then 2 else 0)]

theorem toNat_natWord_of_le {n : Nat} (h : n ≤ 65536) : (natWord n).toNat = n :=
  (BitVec.toNat_ofNat n 32).trans (Nat.mod_eq_of_lt (by omega))

/-- The word a selector reads is the number in its place: every parameter of a valid set fits a word. -/
theorem map_toNat_read {p : Params} (hp : p.Valid) (sel : Nat) : (p.read sel).map BitVec.toNat = (parameterNumbers p)[sel]? := by
  obtain ⟨-, -, -, hslotMax, hchCount, hcapCh, -, hcapCc, hcapSlot⟩ := hp
  match sel with
  | 0 => exact congrArg some (toNat_natWord_of_le (hchCount.trans hcapCh))
  | 1 => exact congrArg some (toNat_natWord_of_le (hslotMax.trans hcapSlot))
  | 2 => exact congrArg some (toNat_natWord_of_le hcapCh)
  | 3 => exact congrArg some (toNat_natWord_of_le hcapCc)
  | 4 => exact congrArg some (toNat_natWord_of_le hcapSlot)
  | 5 | 6 | 7 => rfl
  | 8 => exact congrArg some (toNat_openChoices p)
  | _ + 9 => rfl

theorem exec_cfgRead_of_none {s : State} {sel : Word} (h : s.cfg.read sel.toNat = none) :
    exec (.cfgRead sel) s = fail .indexRange s := by
  simp only [exec, execCfgRead, h]

theorem exec_cfgRead_of_some {s : State} {sel w : Word} (h : s.cfg.read sel.toNat = some w) :
    exec (.cfgRead sel) s = ok { w0 := w } s := by
  simp only [exec, execCfgRead, h]

/-- Settles O30: a selector reads none beyond the end of the nine numbers, and else the word of the number in its place. -/
theorem cfgReadReturnsTheParameter : Obligations.CfgReadReturnsTheParameter := by
  intro s sel hs
  have hread := map_toNat_read hs sel.toNat
  constructor
  · intro hsel
    rw [List.getElem?_eq_none hsel, Option.map_eq_none_iff] at hread
    exact exec_cfgRead_of_none hread
  · intro hsel
    rw [List.getElem?_eq_getElem hsel, Option.map_eq_some_iff] at hread
    obtain ⟨w, hw, hnum⟩ := hread
    exact ⟨w, exec_cfgRead_of_some hw, (List.getElem?_eq_getElem hsel).trans (congrArg some hnum.symm)⟩

/-! ## DISP_READ (R95) -/

/-- Settles O31: one word of two flags, and the two words of a 64-bit quantity. -/
theorem dispReadShowsTheDispatcher : Obligations.DispReadShowsTheDispatcher :=
  fun s => ⟨_, _, _, rfl, toNat_bitWord_or_shiftLeft_one _ _, toNat_loWord s.snap, toNat_hiWord s.snap⟩

end Sys2Proof.Machine

namespace Sys2Proof.Machine

/-! # The host protocol (44_host_lifecycle.md)

A procedure's text is run by one equation per outcome of a command (`runAlone_cmd_ok`, `runAlone_cmd_fail`); an engine operation
runs by definition. Each fragment that procedures share then has one equation per outcome (VALIDATE, STOP, the releases of
DECONFIGURE, the acquisitions of CONFIGURE), and a procedure's obligations are read off the state that its equation names. -/

/-! ## One step of a procedure -/

@[simp] theorem runAlone_ret (st : Status) (s : State) : (ret st).runAlone s = some (s, ⟨st, none⟩) := rfl

/-- A procedure's command goes through the port, which decodes it to itself (30_encoding.md R44). -/
theorem perform_command {i : Instr} (hi : i.wellFormed = true) (s : State) : perform (.command i) s = exec i s :=
  port_of_command (decodeOfEncodeIsIdentity i hi) s

theorem runAlone_ask {op : HostOp} {s t : State} (h : perform op s = .next t) (k : HostReply → Prog) :
    (Prog.ask op k).runAlone s = (k (replyOf op t)).runAlone t := by
  rw [Prog.runAlone, h]

theorem runAlone_cmd {i : Instr} {s t : State} (hi : i.wellFormed = true) (h : exec i s = .next t)
    (k : Status → Words8 → Prog) : (cmd i k).runAlone s = (k t.resp.status t.resp.res).runAlone t :=
  runAlone_ask ((perform_command hi s).trans h) _

theorem runAlone_cmd_ok {i : Instr} {s t : State} {r : Words8} (hi : i.wellFormed = true) (h : exec i s = ok r t)
    (k : Status → Words8 → Prog) : (cmd i k).runAlone s = (k .ok r).runAlone (t.respond .ok r) :=
  runAlone_cmd hi h k

theorem runAlone_cmd_fail {i : Instr} {s t : State} {st : Status} (hi : i.wellFormed = true) (h : exec i s = fail st t)
    (k : Status → Words8 → Prog) : (cmd i k).runAlone s = (k st Words8.zero).runAlone (t.respond st Words8.zero) :=
  runAlone_cmd hi h k

theorem runAlone_cmdThen_ok {i : Instr} {s t : State} {r : Words8} (hi : i.wellFormed = true) (h : exec i s = ok r t)
    (p : Prog) : (cmdThen i p).runAlone s = p.runAlone (t.respond .ok r) :=
  runAlone_cmd_ok hi h fun _ _ => p

/-! ## A whole procedure -/

/-- What holds across every step of a procedure, and passes on from step to step, holds across the procedure. -/
theorem runAlone_relates {R : State → State → Prop} (hrefl : ∀ s, R s s) (htrans : ∀ {s t u}, R s t → R t u → R s u)
    (hperform : ∀ op s, Answers (perform op s) (R s)) {p : Prog} {s t : State} {r : ProcResult}
    (h : p.runAlone s = some (t, r)) : R s t := by
  induction p generalizing s with
  | done _ =>
    cases h
    exact hrefl _
  | ask op k ih =>
    obtain ⟨u, hu, hsu⟩ := hperform op s
    rw [runAlone_ask hu] at h
    exact htrans hsu (ih _ h)

theorem KeepsHost.trans {s t u : State} (h₁ : KeepsHost s t) (h₂ : KeepsHost t u) : KeepsHost s u := by
  obtain ⟨hcfg₁, hhost₁, hresult₁, hagenda₁⟩ := h₁
  obtain ⟨hcfg₂, hhost₂, hresult₂, hagenda₂⟩ := h₂
  exact ⟨hcfg₂.trans hcfg₁, hhost₂.trans hhost₁, hresult₂.trans hresult₁, hagenda₂.trans hagenda₁⟩

theorem runAlone_keepsHost {p : Prog} {s t : State} {r : ProcResult} (h : p.runAlone s = some (t, r)) : KeepsHost s t :=
  runAlone_relates (R := KeepsHost) (fun _ => ⟨rfl, rfl, rfl, rfl⟩) KeepsHost.trans perform_answers h

theorem runAlone_keepsScan {p : Prog} {s t : State} {r : ProcResult} (h : p.runAlone s = some (t, r)) : KeepsScan s t :=
  runAlone_relates KeepsScan.refl KeepsScan.trans perform_keepsScan h

/-! ## A procedure run by the host (R101)

No command and no engine operation reads the host's own fields or the agenda (`perform_withHost`), so a procedure's step does
the same with a procedure under way as without one. -/

/-- The state with other host fields and another agenda. -/
def State.withHost (s : State) (h : Option HostRun) (r : Option ProcResult) (a : List Move) : State :=
  { s with host := h, result := r, agenda := a }

/-- The outcome with other host fields and another agenda. -/
def withHostNext (o : Result) (h : Option HostRun) (r : Option ProcResult) (a : List Move) : Result :=
  match o with
  | .next t => .next (t.withHost h r a)
  | .fault f => .fault f
  | .refused e => .refused e

theorem engineOp_mappedSlot_of_some {s : State} {c : Code} {slot : Word} (h : s.engine.mapping[c.val] = some slot) :
    engineOp (.mappedSlot c) s = s.engReturn (.slot slot) := by
  simp only [engineOp, h]

theorem engineOp_mappedSlot_of_none {s : State} {c : Code} (h : s.engine.mapping[c.val] = none) :
    engineOp (.mappedSlot c) s = s.drawn.engReturn (.slot (Config.mappedSlotDraw s.draws c)) := by
  simp only [engineOp, h]

section WithHost

variable (s : State) (h : Option HostRun) (r : Option ProcResult) (a : List Move)

theorem bm_withHost (b : Bitmap) : (s.withHost h r a).bm b = s.bm b := by cases b <;> rfl

theorem bit_withHost (b : Bitmap) (i : Nat) : (s.withHost h r a).bit b i = s.bit b i := by
  rw [State.bit, bm_withHost, State.bit]

theorem setBit_withHost (b : Bitmap) (i : Nat) (v : Bool) :
    (s.withHost h r a).setBit b i v = (s.setBit b i v).withHost h r a := by
  cases b <;> rfl

theorem setRange_withHost (b : Bitmap) (first last : Nat) :
    (s.withHost h r a).setRange b first last = (s.setRange b first last).withHost h r a := by
  cases b <;> rfl

theorem bmWord_withHost (b : Bitmap) (k : Nat) : (s.withHost h r a).bmWord b k = s.bmWord b k := by
  cases b <;> rfl

theorem setTargets_withHost (ts : List Bitmap) (first last : Nat) :
    setTargets ts first last (s.withHost h r a) = (setTargets ts first last s).withHost h r a := by
  induction ts generalizing s with
  | nil => rfl
  | cons t ts ih => exact (congrArg _ (setRange_withHost ..)).trans (ih _)

theorem warnTargets_withHost (ts : List Bitmap) (first last : Word) :
    warnTargets ts first last (s.withHost h r a) = (warnTargets ts first last s).withHost h r a := by
  rw [warnTargets_eq, warnTargets_eq]
  rfl

theorem ok_withHost (w : Words8) : ok w (s.withHost h r a) = withHostNext (ok w s) h r a := rfl

theorem fail_withHost (st : Status) : fail st (s.withHost h r a) = withHostNext (fail st s) h r a := rfl

/-- No command reads the host's own fields or the agenda. -/
theorem exec_withHost (i : Instr) : exec i (s.withHost h r a) = withHostNext (exec i s) h r a := by
  have hcfg : (s.withHost h r a).cfg = s.cfg := rfl
  cases i with
  | bmClaim k first last =>
    simp only [exec, execBmClaim, hcfg, setTargets_withHost, warnTargets_withHost, ok_withHost, fail_withHost]
    split
    · rfl
    · split
      · rfl
      · split
        · split <;> rfl
        · rfl
  | bmAcquire | bmRelease =>
    simp only [exec, execBmAcquire, execBmRelease, hcfg, bit_withHost, setBit_withHost, ok_withHost, fail_withHost]
    split
    · rfl
    · split
      · rfl
      · split <;> rfl
  | bmAllocRange | bmAcquireAny | bmTest | bmReadWord =>
    simp only [exec, execBmAllocRange, execBmAcquireAny, execBmTest, execBmReadWord, hcfg, bm_withHost, bit_withHost,
      bmWord_withHost, setBit_withHost, setRange_withHost, ok_withHost, fail_withHost]
    split
    · rfl
    · split <;> rfl
  | slotRead | slotWrite | slotTas | slotClear | ienSet | ienClr | ienRead | cfgRead =>
    simp only [exec, execSlotRead, execSlotWrite, execSlotTas, execSlotClear, execIenSet, execIenClr, execIenRead,
      execCfgRead, hcfg, fail_withHost]
    split <;> rfl
  | synth q =>
    rw [exec_synth, exec_synth]
    rfl
  | dispRead => rfl

theorem perform_withHost (op : HostOp) : perform op (s.withHost h r a) = withHostNext (perform op s) h r a := by
  cases op with
  | command i =>
    simp only [perform, port]
    split
    · exact exec_withHost ..
    · rfl
  | engine e =>
    cases e with
    | mappedSlot c =>
      cases hm : s.engine.mapping[c.val] with
      | some slot =>
        rw [perform, perform, engineOp_mappedSlot_of_some hm, engineOp_mappedSlot_of_some (s := s.withHost h r a) hm]
        rfl
      | none =>
        rw [perform, perform, engineOp_mappedSlot_of_none hm, engineOp_mappedSlot_of_none (s := s.withHost h r a) hm]
        rfl
    | _ => rfl

end WithHost

theorem resume_append (rs : List HostReply) (x : HostReply) (p : Prog) :
    Prog.resume (rs ++ [x]) p = Prog.resume [x] (Prog.resume rs p) := by
  induction rs generalizing p with
  | nil => rfl
  | cons y ys ih =>
    cases p with
    | done _ => rw [Prog.resume, Prog.resume, List.cons_append, Prog.resume]
    | ask _ k => exact ih (k y)

theorem runSteps_succ {s t : State} (h : step s = .next t) (n : Nat) : runSteps (n + 1) s = runSteps n t := by
  rw [runSteps, h]

theorem settleHost_of_done {run : HostRun} {x : ProcResult} (hrun : Prog.resume run.replies (procProg run.proc) = .done x)
    (s : State) (h : Option HostRun) (r : Option ProcResult) (a : List Move) :
    settleHost run (s.withHost h r a) = s.withHost none (some x) a := by
  rw [settleHost, hrun]
  rfl

theorem settleHost_of_ask {run : HostRun} {op : HostOp} {k : HostReply → Prog}
    (hrun : Prog.resume run.replies (procProg run.proc) = .ask op k) (s : State) (h : Option HostRun) (r : Option ProcResult)
    (a : List Move) : settleHost run (s.withHost h r a) = s.withHost (some run) r a := by
  rw [settleHost, hrun]
  rfl

/-- The procedure under way with one more reply. -/
def HostRun.reply (run : HostRun) (x : HostReply) : HostRun := { run with replies := run.replies ++ [x] }

/-- A host move takes the next step of the procedure under way, and leaves the other moves on the agenda. -/
theorem step_host {s t : State} {run : HostRun} {op : HostOp} {k : HostReply → Prog} (hs : s.cfg.Valid)
    (hrun : Prog.resume run.replies (procProg run.proc) = .ask op k) (ht : perform op s = .next t)
    (r : Option ProcResult) (a : List Move) :
    step (s.withHost (some run) r (.host :: a)) =
      .next (settleHost (run.reply (replyOf op t)) (t.withHost (some run) r a)) := by
  have hperform : perform op (s.withHost (some run) r a) = .next (t.withHost (some run) r a) := by
    rw [perform_withHost, ht, withHostNext]
  have hreply : replyOf op (t.withHost (some run) r a) = replyOf op t := by cases op <;> rfl
  refine (step_of_valid (s := s.withHost (some run) r (.host :: a)) hs).trans ?_
  change hostStep (s.withHost (some run) r a) = _
  have hhost : (s.withHost (some run) r a).host = some run := rfl
  simp only [hostStep, hhost, hrun, hperform, hreply, HostRun.reply]

/-- From any point of a procedure, host moves bring it to its end. -/
theorem runSteps_settleHost {q : Prog} {s t : State} {run : HostRun} {x : ProcResult} (hs : s.cfg.Valid)
    (hq : Prog.resume run.replies (procProg run.proc) = q) (hend : q.runAlone s = some (t, x)) (h : Option HostRun)
    (r : Option ProcResult) :
    ∃ n, runSteps n (settleHost run (s.withHost h r (List.replicate n .host))) = some (t.withHost none (some x) []) := by
  induction q generalizing s run h with
  | done _ =>
    cases hend
    exact ⟨0, by rw [settleHost_of_done hq, runSteps, List.replicate_zero]⟩
  | ask op k ih =>
    obtain ⟨u, hu, hcfg, -⟩ := perform_answers op s
    rw [runAlone_ask hu] at hend
    have hresume : Prog.resume (run.reply (replyOf op u)).replies (procProg run.proc) = k (replyOf op u) := by
      rw [HostRun.reply, resume_append, hq]
      rfl
    obtain ⟨n, hn⟩ := ih _ (hcfg ▸ hs) hresume hend (some run)
    refine ⟨n + 1, ?_⟩
    rw [settleHost_of_ask hq, List.replicate_succ, runSteps_succ (step_host hs hq hu r _), hn]

/-- Settles O51: the call settles the procedure's text with no replies, and host moves bring it to its end from there. -/
theorem hostStepsFollowTheProcedure : Obligations.HostStepsFollowTheProcedure := by
  intro s t p x hs hhost hagenda h
  obtain ⟨-, hhostt, -, hagendat⟩ := runAlone_keepsHost h
  obtain ⟨n, hn⟩ := runSteps_settleHost (run := ⟨p, []⟩) hs rfl h s.host s.result
  have hcall : step { s with agenda := .call p :: List.replicate n .host } =
      .next (settleHost ⟨p, []⟩ (s.withHost s.host s.result (List.replicate n .host))) := by
    refine (step_of_valid (s := { s with agenda := .call p :: List.replicate n .host }) hs).trans ?_
    change callProcedure p (s.withHost s.host s.result (List.replicate n .host)) = _
    simp only [callProcedure, State.withHost, hhost]
  refine ⟨n, ?_⟩
  rw [runSteps_succ hcall, hn, State.withHost, ← hhost, ← hagenda, ← hhostt, ← hagendat]

end Sys2Proof.Machine

namespace Sys2Proof.Machine

/-! ## VALIDATE (R103) -/

/-- A channel's number is its completion code (00_scope.md R6). -/
theorem State.Inv.channelOf_val {s : State} {c : Word} (hs : s.Inv) (hc : c.toNat < s.cfg.chCount) :
    (channelOf c).val = c.toNat := by
  obtain ⟨-, hch, -⟩ := hs.cfg_valid
  exact Nat.mod_eq_of_lt (hc.trans_le hch)

/-- The state after the SLOT_READ of VALIDATE: the response alone differs. -/
def State.slotRead (s : State) (c : Word) : State := s.respond .ok { w0 := (s.slotAt c.toNat).word }

theorem slotWord_alloc (v : ChannelSlot) : v.word.getLsbD 8 = v.alloc := slotFieldsWord_alloc ..

theorem slotWord_dir (v : ChannelSlot) : Direction.ofBits (v.word.extractLsb' 0 2) = v.dir := by
  rw [ChannelSlot.word, slotFieldsWord_dir, Direction.ofBits_toBits]

section Validate

variable {s : State} {c : Word} (k : Status → Direction → Prog)

theorem runAlone_validate_of_ge (hc : s.cfg.chCount ≤ c.toNat) :
    (validate c k).runAlone s = (k .invalidChannel .idle).runAlone (s.respond .invalidChannel Words8.zero) :=
  runAlone_cmd_fail rfl (exec_slotRead_of_ge hc) _

theorem runAlone_validate_of_not_alloc (hc : c.toNat < s.cfg.chCount) (ha : (s.slotAt c.toNat).alloc = false) :
    (validate c k).runAlone s = (k .notAllocated .idle).runAlone (s.slotRead c) := by
  refine (runAlone_cmd_ok rfl (exec_slotRead_of_lt hc) _).trans ?_
  simp only [slotWord_alloc, ha]
  rfl

theorem runAlone_validate_of_alloc (hc : c.toNat < s.cfg.chCount) (ha : (s.slotAt c.toNat).alloc = true) :
    (validate c k).runAlone s = (k .ok (s.slotAt c.toNat).dir).runAlone (s.slotRead c) := by
  refine (runAlone_cmd_ok rfl (exec_slotRead_of_lt hc) _).trans ?_
  simp only [slotWord_alloc, slotWord_dir, ha]
  rfl

end Validate

/-- START, STOP, GET_STATUS and DECONFIGURE begin with VALIDATE and return its status if it is not OK. -/
theorem eq_validate_of_mem {c : Word} {p : Prog} (hp : p ∈ [progStart c, progStop c, progGetStatus c, progDeconfigure c]) :
    ∃ k, p = validate c k ∧ ∀ st d, st ≠ .ok → k st d = ret st := by
  simp only [List.mem_cons, List.not_mem_nil, or_false] at hp
  rcases hp with rfl | rfl | rfl | rfl
  · refine ⟨_, rfl, fun _ _ h => ?_⟩
    exact if_pos h
  · rw [progStop, stopThen]
    refine ⟨_, rfl, fun _ _ h => ?_⟩
    exact if_pos h
  · refine ⟨_, rfl, fun _ _ h => ?_⟩
    exact if_pos h
  · rw [progDeconfigure, deconfigureThen, stopThen]
    refine ⟨_, rfl, fun _ _ h => ?_⟩
    exact (if_pos h).trans (if_pos h)

/-- Settles O52: the four procedures begin with VALIDATE, and its refusals are their results. -/
theorem unusableChannelIsRefusedFirst : Obligations.UnusableChannelIsRefusedFirst := by
  intro s c p hp
  obtain ⟨k, rfl, hk⟩ := eq_validate_of_mem hp
  constructor
  · intro hc
    rw [runAlone_validate_of_ge k hc, hk _ _ (by decide)]
    rfl
  · intro hc ha
    refine ⟨s.slotRead c, ?_, rfl, rfl⟩
    rw [runAlone_validate_of_not_alloc k hc ha, hk _ _ (by decide), runAlone_ret]

/-! ## Engine operations in a row -/

/-- Of the block and the host nothing but the response differs. -/
def KeepsBlock (s t : State) : Prop :=
  KeepsBitmaps s t ∧ KeepsSlots s t ∧ KeepsDispatcher s t ∧ KeepsEvents s t ∧ KeepsHost s t

theorem KeepsBlock.refl (s : State) : KeepsBlock s s :=
  ⟨⟨rfl, rfl, rfl⟩, rfl, ⟨rfl, rfl, rfl, rfl⟩, rfl, rfl, rfl, rfl, rfl⟩

theorem KeepsBlock.engineOp {s t : State} (h : KeepsBlock s t) (op : EngineOp) : KeepsBlock s (engineOp op t) := by
  obtain ⟨⟨hchan, hcc, hslot⟩, hchs, ⟨hien, hgs, hdstate, hsnap⟩, hevt, hhost⟩ := h
  obtain ⟨⟨hchan', hcc', hslot'⟩, hchs', ⟨hien', hgs', hdstate', hsnap'⟩, hevt', -, hhost'⟩ := engineOp_keeps op t
  exact ⟨⟨hchan'.trans hchan, hcc'.trans hcc, hslot'.trans hslot⟩, hchs'.trans hchs,
    ⟨hien'.trans hien, hgs'.trans hgs, hdstate'.trans hdstate, hsnap'.trans hsnap⟩, hevt'.trans hevt, hhost.trans hhost'⟩

/-- Engine operations, the first one first. -/
def engineOps (ops : List EngineOp) (s : State) : State := ops.foldl (fun t op => engineOp op t) s

theorem KeepsBlock.engineOps {s t : State} (h : KeepsBlock s t) (ops : List EngineOp) :
    KeepsBlock s (engineOps ops t) := by
  induction ops generalizing t with
  | nil => exact h
  | cons op ops ih => exact ih (h.engineOp op)

theorem keepsBlock_slotRead (s : State) (c : Word) : KeepsBlock s (s.slotRead c) := KeepsBlock.refl s

theorem getLsbD_maskSet_same (m : CodeMask) (i : Code) : (maskSet m i.val).getLsbD i.val = true := by
  rw [getLsbD_maskSet m _ _ i.isLt, decide_eq_true rfl, Bool.or_true]

/-! ## START (R110) -/

/-- The engine operations of START, by direction. -/
def startOps (d : Direction) (c : Code) : List EngineOp :=
  match d with
  | .idle => []
  | .memToMem => [.clearPending c, .manualTrigger c]
  | .memToPeripheral => [.clearPending c, .eventEnable c, .manualTrigger c]
  | .peripheralToMemory => [.clearPending c, .eventEnable c]

theorem runAlone_progStart_of_alloc {s : State} {c : Word} (hc : c.toNat < s.cfg.chCount)
    (ha : (s.slotAt c.toNat).alloc = true) :
    (progStart c).runAlone s =
      some (engineOps (startOps (s.slotAt c.toNat).dir (channelOf c)) (s.slotRead c),
        ⟨if (s.slotAt c.toNat).dir = .idle then .unsupported else .ok, none⟩) := by
  refine (runAlone_validate_of_alloc _ hc ha).trans ?_
  cases (s.slotAt c.toNat).dir <;> rfl

/-- Settles O53: the engine operations of START, read direction by direction. -/
theorem startTriggersByDirection : Obligations.StartTriggersByDirection := by
  intro s c hs hc ha
  have hch := hs.channelOf_val hc
  obtain ⟨hbm, hchs, hdispatcher, hevt, -⟩ :=
    (keepsBlock_slotRead s c).engineOps (startOps (s.slotAt c.toNat).dir (channelOf c))
  refine ⟨_, _, runAlone_progStart_of_alloc hc ha, hbm, hchs, hdispatcher, hevt, ?_⟩
  rw [← hch]
  generalize (s.slotAt (channelOf c).val).dir = d
  have hclear (m : CodeMask) (j : Nat) := getLsbD_maskClear m (channelOf c).val j
  have harmed := getLsbD_maskSet_same s.engine.eventArmed (channelOf c)
  cases d with
  | idle => simp [startOps, engineOps, State.slotRead]
  | memToMem => simp [startOps, engineOps, engineOp, State.slotRead, hclear]
  | memToPeripheral => simp [startOps, engineOps, engineOp, State.slotRead, hclear, harmed]
  | peripheralToMemory => simp [startOps, engineOps, engineOp, State.slotRead, hclear, harmed]

/-! ## GET_STATUS (R112) -/

/-- Settles O54: three engine operations, none of which changes more than the answer and the number of draws. -/
theorem getStatusReportsByTheFormula : Obligations.GetStatusReportsByTheFormula := by
  intro s c hs hc ha
  have hch := hs.channelOf_val hc
  refine ⟨{ s.slotRead c with engReply := .counts (Config.liveDraw (s.draws + 1) (channelOf c)), draws := s.draws + 2 },
    ?_, rfl⟩
  refine (runAlone_validate_of_alloc _ hc ha).trans ?_
  rw [← hch]
  cases (s.slotAt (channelOf c).val).dir <;> rfl

/-! ## STOP (R111) -/

/-- The engine operations of STOP, by direction. -/
def stopOps (d : Direction) (c : Code) : List EngineOp :=
  match d with
  | .idle => [.clearPending c]
  | .memToMem => [.manualDisable c, .clearPending c]
  | .memToPeripheral => [.eventDisable c, .clearPending c]
  | .peripheralToMemory => [.eventDisable c, .clearPending c]

/-- The state that STOP of an allocated channel leaves. -/
def State.stopped (s : State) (c : Word) : State :=
  engineOps (stopOps (s.slotAt c.toNat).dir (channelOf c)) (s.slotRead c)

theorem runAlone_stopThen_of_alloc {s : State} {c : Word} (k : Status → Prog) (hc : c.toNat < s.cfg.chCount)
    (ha : (s.slotAt c.toNat).alloc = true) : (stopThen c k).runAlone s = (k .ok).runAlone (s.stopped c) := by
  refine (runAlone_validate_of_alloc _ hc ha).trans ?_
  unfold State.stopped
  cases (s.slotAt c.toNat).dir <;> rfl

theorem keepsBlock_stopped (s : State) (c : Word) : KeepsBlock s (s.stopped c) := (keepsBlock_slotRead s c).engineOps _

@[simp] theorem stopped_mapping (s : State) (c : Word) : (s.stopped c).engine.mapping = s.engine.mapping := by
  unfold State.stopped
  cases (s.slotAt c.toNat).dir <;> rfl

@[simp] theorem stopped_draws (s : State) (c : Word) : (s.stopped c).draws = s.draws := by
  unfold State.stopped
  cases (s.slotAt c.toNat).dir <;> rfl

theorem stopsChannel_stopped {s : State} {c : Word} (hch : (channelOf c).val = c.toNat) :
    StopsChannel s (s.stopped c) c.toNat := by
  unfold StopsChannel State.stopped
  rw [← hch]
  have hclear (m : CodeMask) (j : Nat) := getLsbD_maskClear m (channelOf c).val j
  cases (s.slotAt (channelOf c).val).dir <;> simp [stopOps, engineOps, engineOp, State.slotRead, hclear]

end Sys2Proof.Machine

namespace Sys2Proof.Machine

/-! ## Commands whose status is tested -/

section Guard

variable {i : Instr} {s t : State} {f k : Status → Words8 → Prog}

theorem runAlone_guard_ok {r : Words8} (hi : i.wellFormed = true) (h : exec i s = ok r t) :
    (cmd i fun st r => if st ≠ .ok then f st r else k st r).runAlone s = (k .ok r).runAlone (t.respond .ok r) := by
  rw [runAlone_cmd_ok hi h, if_neg (not_not_intro rfl)]

theorem runAlone_guard_fail {st : Status} (hi : i.wellFormed = true) (h : exec i s = fail st t) (hst : st ≠ .ok) :
    (cmd i fun st r => if st ≠ .ok then f st r else k st r).runAlone s =
      (f st Words8.zero).runAlone (t.respond st Words8.zero) := by
  rw [runAlone_cmd_fail hi h, if_pos hst]

end Guard

/-! ## DECONFIGURE (R113): STOP, the mapping removed, three releases and the slot cleared -/

/-- The slot number that DECONFIGURE reads after STOP. -/
def State.mappedSlot (s : State) (c : Word) : Word :=
  (engineOp (.mappedSlot (channelOf c)) (s.stopped c)).engReply.toSlot

/-- The state that DECONFIGURE has reached before its releases. -/
def State.unmapped (s : State) (c : Word) : State :=
  engineOps [.mappedSlot (channelOf c), .unmap (channelOf c)] (s.stopped c)

/-- One release of DECONFIGURE: unless it succeeds the procedure goes on with `stop`. -/
def releaseElse (b : Bitmap) (i : Word) (stop next : Prog) : Prog :=
  cmd (.bmRelease b.sel i) fun st _ => if st ≠ .ok then stop else next

/-- What DECONFIGURE does after ENG_UNMAP, going on with its status. -/
def releaseTriple (c slot : Word) (k : Status → Prog) : Prog :=
  releaseElse .chan c (k .cancelled) <| releaseElse .cc c (k .cancelled) <| releaseElse .slot slot (k .cancelled) <|
    cmdThen (.slotClear c) <| k .ok

theorem runAlone_deconfigureThen_of_alloc {s : State} {c : Word} (k : Status → Prog) (hc : c.toNat < s.cfg.chCount)
    (ha : (s.slotAt c.toNat).alloc = true) :
    (deconfigureThen c k).runAlone s = (releaseTriple c (s.mappedSlot c) k).runAlone (s.unmapped c) :=
  runAlone_stopThen_of_alloc _ hc ha

theorem keepsBlock_unmapped (s : State) (c : Word) : KeepsBlock s (s.unmapped c) := (keepsBlock_stopped s c).engineOps _

section Mapped

variable {s : State} {c slot : Word} (h : s.engine.mapping[(channelOf c).val] = some slot)

include h

theorem engineOp_mappedSlot_stopped :
    engineOp (.mappedSlot (channelOf c)) (s.stopped c) = (s.stopped c).engReturn (.slot slot) :=
  engineOp_mappedSlot_of_some (by rw [stopped_mapping]; exact h)

theorem mappedSlot_of_mapped : s.mappedSlot c = slot := by
  rw [State.mappedSlot, engineOp_mappedSlot_stopped h]
  rfl

/-- With a mapping to read no free value is drawn. -/
theorem unmapped_of_mapped :
    s.unmapped c = engineOp (.unmap (channelOf c)) ((s.stopped c).engReturn (.slot slot)) := by
  rw [State.unmapped, engineOps, List.foldl_cons, engineOp_mappedSlot_stopped h]
  rfl

end Mapped

/-! ### The releases -/

/-- A set bit is within its bitmap. -/
theorem State.Inv.lt_cap_of_bit {s : State} {b : Bitmap} {i : Nat} (hs : s.Inv) (h : s.bit b i = true) : i < s.cfg.cap b := by
  rw [hs.bit_eq_lt_cap_and, Bool.and_eq_true, decide_eq_true_eq] at h
  exact h.1

/-- A channel has a bit in CHAN and in CC (00_scope.md R1). -/
theorem State.Inv.lt_cap_of_channel {s : State} {c : Nat} (hs : s.Inv) (hc : c < s.cfg.chCount) :
    c < s.cfg.cap .chan ∧ c < s.cfg.cap .cc := by
  obtain ⟨-, -, -, -, hchan, -, hcc, -⟩ := hs.cfg_valid
  exact ⟨hc.trans_le hchan, hc.trans_le hcc⟩

theorem wellFormed_bmRelease (b : Bitmap) (i : Word) : (Instr.bmRelease b.sel i).wellFormed = true := by cases b <;> rfl

/-- Bit `i` of bitmap `b` released. -/
def State.released (s : State) (b : Bitmap) (i : Nat) : State := (s.setBit b i false).respond .ok Words8.zero

theorem runAlone_releaseElse_of_taken {s : State} {b : Bitmap} {i : Word} (hi : i.toNat < s.cfg.cap b)
    (h : s.bit b i.toNat = true) (stop next : Prog) :
    (releaseElse b i stop next).runAlone s = next.runAlone (s.released b i.toNat) :=
  runAlone_guard_ok (wellFormed_bmRelease b i) (exec_bmRelease_of_taken hi h)

/-- Releasing a bit that is not set fails, whether it is free or beyond the bitmap. -/
theorem exec_bmRelease_of_not_taken {s : State} {b : Bitmap} {i : Word} (h : s.bit b i.toNat = false) :
    ∃ st, st ≠ .ok ∧ exec (.bmRelease b.sel i) s = fail st s := by
  by_cases hi : i.toNat < s.cfg.cap b
  · exact ⟨.releaseFailed, by decide, exec_bmRelease_of_free hi h⟩
  · exact ⟨.indexRange, by decide, exec_bmRelease_of_cap_le (Nat.le_of_not_lt hi)⟩

theorem runAlone_releaseElse_of_not_taken {s : State} {b : Bitmap} {i : Word} (h : s.bit b i.toNat = false) :
    ∃ st, ∀ stop next, (releaseElse b i stop next).runAlone s = stop.runAlone (s.respond st Words8.zero) := by
  obtain ⟨st, hst, hexec⟩ := exec_bmRelease_of_not_taken h
  exact ⟨st, fun stop next => runAlone_guard_fail (wellFormed_bmRelease b i) hexec hst⟩

/-- The index of a triple's bit in each bitmap: the channel's number in CHAN and CC, the descriptor slot's in SLOT. -/
def tripleIndex (c slot : Nat) : Bitmap → Nat
  | .chan => c
  | .cc => c
  | .slot => slot

theorem State.Inv.tripleIndex_lt_cap {s : State} {c slot : Nat} (hs : s.Inv) (hc : c < s.cfg.chCount)
    (hslot : slot < s.cfg.cap .slot) (b : Bitmap) : tripleIndex c slot b < s.cfg.cap b := by
  obtain ⟨hltChan, hltCc⟩ := hs.lt_cap_of_channel hc
  cases b with
  | chan => exact hltChan
  | cc => exact hltCc
  | slot => exact hslot

/-- The triple's three bits are set. -/
def State.HoldsTriple (s : State) (c slot : Nat) : Prop := ∀ b, s.bit b (tripleIndex c slot b) = true

/-- The three bits of a triple cleared, and the channel's slot. -/
def State.releasedTriple (s : State) (c slot : Nat) : State :=
  (((s.setBit .chan c false).setBit .cc c false).setBit .slot slot false).setSlot c ChannelSlot.clear

section Release

variable {s : State} {c slot : Word} (hs : s.Inv) (hc : c.toNat < s.cfg.chCount)

include hs hc

theorem runAlone_releaseTriple_of_held (hheld : s.HoldsTriple c.toNat slot.toNat) (k : Status → Prog) :
    (releaseTriple c slot k).runAlone s =
      (k .ok).runAlone ((s.releasedTriple c.toNat slot.toNat).respond .ok Words8.zero) := by
  obtain ⟨hltChan, hltCc⟩ := hs.lt_cap_of_channel hc
  refine (runAlone_releaseElse_of_taken hltChan (hheld .chan) _ _).trans ?_
  refine (runAlone_releaseElse_of_taken (s := s.released .chan c.toNat) hltCc (hheld .cc) _ _).trans ?_
  refine (runAlone_releaseElse_of_taken (s := (s.released .chan c.toNat).released .cc c.toNat)
    (hs.lt_cap_of_bit (hheld .slot)) (hheld .slot) _ _).trans ?_
  refine runAlone_cmdThen_ok rfl (exec_slotClear_of_lt ?_) _
  exact hc

/-- With a bit of the triple free the releases stop there; the ones before it are done. -/
theorem runAlone_releaseTriple_of_not_held
    (h : s.bit .chan c.toNat = false ∨ s.bit .cc c.toNat = false ∨ s.bit .slot slot.toNat = false) :
    ∃ t, (∀ k, (releaseTriple c slot k).runAlone s = (k .cancelled).runAlone t) ∧
      (∀ j, t.bit .chan j = (s.bit .chan j && decide (j ≠ c.toNat))) ∧
      (∀ j, t.bit .cc j = (s.bit .cc j && !(s.bit .chan c.toNat && decide (j = c.toNat)))) ∧
      t.bmSlot = s.bmSlot ∧ KeepsSlots s t ∧ KeepsDispatcher s t ∧ KeepsEvents s t ∧ KeepsEnvironment s t := by
  obtain ⟨hltChan, hltCc⟩ := hs.lt_cap_of_channel hc
  have hclear {b : Bitmap} (hb : c.toNat < s.cfg.cap b) (j : Nat) := bit_setBit_false (hs.lt_length hb) j
  have hfree {b : Bitmap} (hb : s.bit b c.toNat = false) (j : Nat) : s.bit b j = (s.bit b j && decide (j ≠ c.toNat)) := by
    by_cases hj : j = c.toNat <;> simp [hj, hb]
  cases hchan : s.bit .chan c.toNat with
  | false =>
    obtain ⟨st, hstop⟩ := runAlone_releaseElse_of_not_taken hchan
    exact ⟨_, fun k => hstop (k .cancelled) _, hfree hchan, by simp, rfl, rfl, ⟨rfl, rfl, rfl, rfl⟩, rfl,
      keepsEnvironment_refl s⟩
  | true =>
    cases hcc : s.bit .cc c.toNat with
    | false =>
      obtain ⟨st, hstop⟩ := runAlone_releaseElse_of_not_taken (s := s.released .chan c.toNat) (b := .cc) hcc
      refine ⟨_, fun k => (runAlone_releaseElse_of_taken hltChan hchan _ _).trans (hstop (k .cancelled) _),
        hclear hltChan, fun j => ?_, rfl, rfl, ⟨rfl, rfl, rfl, rfl⟩, rfl, keepsEnvironment_refl s⟩
      rw [Bool.true_and, ← decide_not]
      exact hfree hcc j
    | true =>
      have hslot : s.bit .slot slot.toNat = false := by simpa [hchan, hcc] using h
      obtain ⟨st, hstop⟩ :=
        runAlone_releaseElse_of_not_taken (s := (s.released .chan c.toNat).released .cc c.toNat) (b := .slot)
          hslot
      refine ⟨_, fun k => (runAlone_releaseElse_of_taken hltChan hchan _ _).trans
          ((runAlone_releaseElse_of_taken (s := s.released .chan c.toNat) hltCc hcc _ _).trans (hstop (k .cancelled) _)),
        hclear hltChan, fun j => ?_, rfl, rfl, ⟨rfl, rfl, rfl, rfl⟩, rfl, keepsEnvironment_refl s⟩
      rw [Bool.true_and, ← decide_not]
      exact hclear hltCc j

end Release

theorem bit_releasedTriple {s : State} {c slot : Nat} (hs : s.Inv) (hc : c < s.cfg.chCount) (hslot : slot < s.cfg.cap .slot)
    (b : Bitmap) (j : Nat) :
    (s.releasedTriple c slot).bit b j = (s.bit b j && decide (j ≠ tripleIndex c slot b)) := by
  have hclear := bit_setBit_false (hs.lt_length (hs.tripleIndex_lt_cap hc hslot b)) j
  cases b with
  | chan => exact hclear
  | cc => exact hclear
  | slot => exact hclear

theorem slotAt_releasedTriple {s : State} {c : Nat} (hs : s.Inv) (hc : c < s.cfg.chCount) (slot j : Nat) :
    (s.releasedTriple c slot).slotAt j = if j = c then ChannelSlot.clear else s.slotAt j :=
  slotAt_setSlot s c j _ (hs.lt_chs_length hc)

theorem releasedTriple_keeps (s : State) (c slot : Nat) (st : Status) (r : Words8) :
    KeepsDispatcher s ((s.releasedTriple c slot).respond st r) ∧ KeepsEvents s ((s.releasedTriple c slot).respond st r) ∧
      KeepsEnvironment s ((s.releasedTriple c slot).respond st r) :=
  ⟨⟨rfl, rfl, rfl, rfl⟩, rfl, keepsEnvironment_refl s⟩

/-! ### The two outcomes -/

/-- ENG_UNMAP and the releases change nothing of what `StopsChannel` speaks of. -/
theorem StopsChannel.congr {s t u : State} {c : Nat} {m : Vector (Option Word) 64} (h : StopsChannel s t c)
    (hcv : u.cv = t.cv) (hengine : u.engine = { t.engine with mapping := m }) : StopsChannel s u c := by
  unfold StopsChannel at h ⊢
  rw [hcv, hengine]
  exact h

/-- What DECONFIGURE of a mapped channel does outside the bitmaps and the slot table, however its releases end. -/
theorem deconfigure_frame {s t : State} {c slot : Word} (hch : (channelOf c).val = c.toNat)
    (hmap : s.engine.mapping[(channelOf c).val] = some slot) (hdispatcher : KeepsDispatcher (s.unmapped c) t)
    (hevt : KeepsEvents (s.unmapped c) t) (henv : KeepsEnvironment (s.unmapped c) t) :
    StopsChannel s t c.toNat ∧ t.engine.mapping = s.engine.mapping.set (channelOf c).val none ∧
      KeepsDispatcher s t ∧ KeepsEvents s t ∧ KeepsHost s t ∧ t.draws = s.draws := by
  obtain ⟨hcfg, hcv, hengine, -, hhost, hresult, hdraws, hagenda⟩ := henv
  obtain ⟨hien, hgs, hdstate, hsnap⟩ := hdispatcher
  obtain ⟨-, -, ⟨hien', hgs', hdstate', hsnap'⟩, hevt', hhost'⟩ := keepsBlock_unmapped s c
  rw [unmapped_of_mapped hmap] at hcv hengine hdraws
  refine ⟨(stopsChannel_stopped hch).congr hcv hengine, ?_,
    ⟨hien.trans hien', hgs.trans hgs', hdstate.trans hdstate', hsnap.trans hsnap'⟩, hevt.trans hevt',
    hhost'.trans ⟨hcfg, hhost, hresult, hagenda⟩, hdraws.trans (stopped_draws s c)⟩
  rw [hengine, ← stopped_mapping s c]
  rfl

theorem KeepsScan.engineOps {s t : State} (h : KeepsScan s t) (ops : List EngineOp) : KeepsScan s (engineOps ops t) := by
  induction ops generalizing t with
  | nil => exact h
  | cons op ops ih => exact ih (h.trans (engineOp_keepsScan op t))

theorem State.Inv.unmapped {s : State} (hs : s.Inv) (c : Word) : (s.unmapped c).Inv :=
  hs.of_keepsScan (((KeepsScan.bookkeeping s).engineOps _).engineOps _)

/-- Settles O55: STOP by its equation; DECONFIGURE is STOP, the unmapping and the releases, whose two outcomes are the two
cases of the obligation. -/
theorem deconfigureReleasesTheTriple : Obligations.DeconfigureReleasesTheTriple := by
  intro s c hs hc ha
  have hch := hs.channelOf_val hc
  constructor
  · obtain ⟨hbm, hchs, hdispatcher, hevt, hhost⟩ := keepsBlock_stopped s c
    exact ⟨_, runAlone_stopThen_of_alloc ret hc ha, stopsChannel_stopped hch, stopped_mapping s c, hbm, hchs, hdispatcher,
      hevt, hhost, stopped_draws s c⟩
  intro slot hmap
  have hrun : (progDeconfigure c).runAlone s = (releaseTriple c slot ret).runAlone (s.unmapped c) := by
    rw [← mappedSlot_of_mapped hmap]
    exact runAlone_deconfigureThen_of_alloc ret hc ha
  obtain ⟨hbm, hchs, -, -, hcfg, -⟩ := keepsBlock_unmapped s c
  have hbit (b : Bitmap) (j : Nat) : s.bit b j = (s.unmapped c).bit b j := (bit_congr (bm_eq_of_keepsBitmaps hbm b) j).symm
  have hslotAt (j : Nat) : s.slotAt j = (s.unmapped c).slotAt j := (slotAt_congr hchs j).symm
  have hinv := hs.unmapped c
  rw [← hcfg] at hc
  simp only [hbit]
  constructor
  · intro hchan hcc hslot
    have hheld : (s.unmapped c).HoldsTriple c.toNat slot.toNat
      | .chan => hchan
      | .cc => hcc
      | .slot => hslot
    have hbits := bit_releasedTriple hinv hc (hinv.lt_cap_of_bit hslot)
    have hslots := slotAt_releasedTriple hinv hc slot.toNat
    obtain ⟨hdispatcher, hevt, henv⟩ := releasedTriple_keeps (s.unmapped c) c.toNat slot.toNat .ok Words8.zero
    refine ⟨_, hrun.trans (runAlone_releaseTriple_of_held hinv hc hheld ret), hbits .chan, hbits .cc, hbits .slot,
      (hslots _).trans (if_pos rfl), fun j hj => ?_,
      deconfigure_frame hch hmap hdispatcher hevt henv⟩
    rw [hslotAt]
    exact (hslots j).trans (if_neg hj)
  · intro hfree
    obtain ⟨-, -, hbmSlot⟩ := hbm
    obtain ⟨t, ht, hchan, hcc, hslot, hslots, hdispatcher, hevt, henv⟩ := runAlone_releaseTriple_of_not_held hinv hc hfree
    exact ⟨t, hrun.trans (ht ret), hchan, hcc, hslot.trans hbmSlot, hslots.trans hchs,
      deconfigure_frame hch hmap hdispatcher hevt henv⟩

end Sys2Proof.Machine

namespace Sys2Proof.Machine

/-! ## CONFIGURE, steps 2 and 3: the triple acquired and the descriptor synthesized (R105, R106) -/

/-- The state with another response and other events. The acquisitions of CONFIGURE and their undoing run over such states:
what was acquired is undone up to these two fields. -/
def State.answered (s : State) (x : Response) (es : List Event) : State := { s with resp := x, evt := es }

section Answered

variable {s : State} {x : Response} {es : List Event} {b : Bitmap} {i : Word}

theorem State.answered_self (s : State) : s.answered s.resp s.evt = s := rfl

theorem cfg_answered : (s.answered x es).cfg = s.cfg := rfl

theorem bm_answered (b : Bitmap) : (s.answered x es).bm b = s.bm b := by cases b <;> rfl

theorem bit_answered (b : Bitmap) (j : Nat) : (s.answered x es).bit b j = s.bit b j := bit_congr (bm_answered b) j

theorem setBit_answered (b : Bitmap) (j : Nat) (v : Bool) :
    (s.answered x es).setBit b j v = (s.setBit b j v).answered x es := by
  cases b <;> rfl

/-! ### Acquiring -/

/-- One acquisition of CONFIGURE: unless it succeeds the procedure goes on with `stop`. -/
def acquireElse (b : Bitmap) (i : Word) (stop next : Prog) : Prog :=
  cmd (.bmAcquire b.sel i) fun st _ => if st ≠ .ok then stop else next

theorem wellFormed_bmAcquire (b : Bitmap) (i : Word) : (Instr.bmAcquire b.sel i).wellFormed = true := by cases b <;> rfl

theorem runAlone_acquireElse_of_free (hi : i.toNat < s.cfg.cap b) (h : s.bit b i.toNat = false) (stop next : Prog) :
    (acquireElse b i stop next).runAlone (s.answered x es) =
      next.runAlone ((s.setBit b i.toNat true).answered ⟨.ok, { w0 := i }⟩ es) := by
  have hexec := exec_bmAcquire_of_free (s := s.answered x es) hi ((bit_answered b _).trans h)
  rw [setBit_answered] at hexec
  exact runAlone_guard_ok (wellFormed_bmAcquire b i) hexec

theorem runAlone_acquireElse_of_taken (hi : i.toNat < s.cfg.cap b) (h : s.bit b i.toNat = true) (stop next : Prog) :
    (acquireElse b i stop next).runAlone (s.answered x es) =
      stop.runAlone (s.answered ⟨.allocationFailed, Words8.zero⟩ es) :=
  runAlone_guard_fail (wellFormed_bmAcquire b i)
    (exec_bmAcquire_of_taken (s := s.answered x es) hi ((bit_answered b _).trans h)) (by decide)

/-- The acquisition of any descriptor slot: unless it succeeds the procedure goes on with `stop`. -/
def acquireSlotElse (stop : Prog) (next : Word → Prog) : Prog :=
  cmd (.bmAcquireAny (Bitmap.sel .slot)) fun st r => if st ≠ .ok then stop else next r.w0

theorem runAlone_acquireSlotElse_of_some {j : Nat} (h : lowestFree (s.bm .slot) = some j) (stop : Prog) (next : Word → Prog) :
    (acquireSlotElse stop next).runAlone (s.answered x es) =
      (next (natWord j)).runAlone ((s.setBit .slot j true).answered ⟨.ok, { w0 := natWord j }⟩ es) :=
  runAlone_guard_ok rfl (exec_bmAcquireAny_of_some (s := s.answered x es) (b := .slot) h)

theorem runAlone_acquireSlotElse_of_none (h : lowestFree (s.bm .slot) = none) (stop : Prog) (next : Word → Prog) :
    (acquireSlotElse stop next).runAlone (s.answered x es) =
      stop.runAlone (s.answered ⟨.allocationFailed, Words8.zero⟩ es) :=
  runAlone_guard_fail rfl (exec_bmAcquireAny_of_none (s := s.answered x es) (b := .slot) h) (by decide)

/-- A SYNTH: unless it succeeds the procedure goes on with `stop` of its status. -/
def synthElse (q : SynthRequest) (stop : Status → Prog) (next : Words8 → Prog) : Prog :=
  cmd (.synth q) fun st d => if st ≠ .ok then stop st else next d

theorem runAlone_synthElse_of_ok {q : SynthRequest} (h : (synthResponse s.cfg.ccountOverflow q).status = .ok)
    (stop : Status → Prog) (next : Words8 → Prog) :
    ∃ x' es', (synthElse q stop next).runAlone (s.answered x es) =
      (next (synthResponse s.cfg.ccountOverflow q).res).runAlone (s.answered x' es') :=
  ⟨_, _, (runAlone_cmd rfl (exec_synth (s.answered x es) q) _).trans (congrArg (Prog.runAlone · _) (if_neg (not_not_intro h)))⟩

theorem runAlone_synthElse_of_ne_ok {q : SynthRequest} (h : (synthResponse s.cfg.ccountOverflow q).status ≠ .ok)
    (stop : Status → Prog) (next : Words8 → Prog) :
    ∃ x' es', (synthElse q stop next).runAlone (s.answered x es) =
      (stop (synthResponse s.cfg.ccountOverflow q).status).runAlone (s.answered x' es') :=
  ⟨_, _, (runAlone_cmd rfl (exec_synth (s.answered x es) q) _).trans (congrArg (Prog.runAlone · _) (if_pos h))⟩

/-! ### Undoing -/

/-- Releasing a bit that was acquired leaves the bitmap as it was. -/
theorem setBit_setBit_of_free {j : Nat} (hj : j < (s.bm b).length) (h : s.bit b j = false) :
    (s.setBit b j true).setBit b j false = s := by
  have hget : (s.bm b)[j] = false := by simpa [State.bit, hj] using h
  have hset : ((s.bm b).set j true).set j false = s.bm b := by rw [List.set_set, ← hget, List.set_getElem_self]
  calc
    (s.setBit b j true).setBit b j false = s.setBm b (((s.bm b).set j true).set j false) := by cases b <;> rfl
    _ = s := by rw [hset]; cases b <;> rfl

theorem runAlone_release_acquired (hi : i.toNat < s.cfg.cap b) (hlen : i.toNat < (s.bm b).length)
    (h : s.bit b i.toNat = false) (p : Prog) :
    (cmdThen (.bmRelease b.sel i) p).runAlone ((s.setBit b i.toNat true).answered x es) =
      p.runAlone (s.answered ⟨.ok, Words8.zero⟩ es) := by
  have hbit : ((s.setBit b i.toNat true).answered x es).bit b i.toNat = true := by
    rw [bit_answered, bit_setBit_true hlen, decide_eq_true rfl, Bool.or_true]
  have hcfg : i.toNat < ((s.setBit b i.toNat true).answered x es).cfg.cap b := by rwa [cfg_answered, State.setBit_cfg]
  have hexec := exec_bmRelease_of_taken hcfg hbit
  rw [setBit_answered, setBit_setBit_of_free hlen h] at hexec
  exact runAlone_cmdThen_ok (wellFormed_bmRelease b i) hexec p

end Answered

/-- The end of every failed acquisition: the channel's slot cleared and the status returned. -/
def undoChannel (c : Word) (st : Status) : Prog := cmdThen (.slotClear c) <| ret st

/-- The channel's bit of CHAN released before that. -/
def undoChan (c : Word) (st : Status) : Prog := cmdThen (.bmRelease (Bitmap.sel .chan) c) <| undoChannel c st

/-- The channel's bit of CC released before that. -/
def undoCc (c : Word) (st : Status) : Prog := cmdThen (.bmRelease (Bitmap.sel .cc) c) <| undoChan c st

/-- The descriptor slot released before that: the undoing of a whole triple. -/
def undoSlot (c slot : Word) (st : Status) : Prog := cmdThen (.bmRelease (Bitmap.sel .slot) slot) <| undoCc c st

/-- The request of CONFIGURE's SYNTH: the completion code is the channel number (R106). -/
def channelRequest (c : Word) (q : SynthRequest) : SynthRequest :=
  { q with completionCode := BitVec.ofNat 6 (channelOf c).val }

theorem configureAcquire_eq (c : Word) (req : ConfigureRequest) :
    configureAcquire c req =
      (acquireElse .chan c (undoChannel c .allocationFailed) <| acquireElse .cc c (undoChan c .allocationFailed) <|
        acquireSlotElse (undoCc c .allocationFailed) fun slot =>
          synthElse (channelRequest c req.fields) (undoSlot c slot) (configurePublish c slot req)) :=
  rfl

/-- The three bits of a triple set. -/
def State.acquiredTriple (s : State) (c slot : Nat) : State :=
  ((s.setBit .chan c true).setBit .cc c true).setBit .slot slot true

/-- An acquisition that failed with status `st`: the state is `s` up to the response and the events, with the channel's slot
clear. -/
def UndoneTo (s : State) (c : Word) (st : Status) (o : Option (State × ProcResult)) : Prop :=
  ∃ es, o = some ((s.setSlot c.toNat ChannelSlot.clear).answered ⟨.ok, Words8.zero⟩ es, ⟨st, none⟩)

section Acquire

variable {s : State} {c : Word} {st : Status} {x : Response} {es : List Event}

theorem runAlone_undoChannel (hc : c.toNat < s.cfg.chCount) :
    UndoneTo s c st ((undoChannel c st).runAlone (s.answered x es)) :=
  ⟨es, runAlone_cmdThen_ok rfl (exec_slotClear_of_lt (s := s.answered x es) hc) _⟩

variable (hs : s.Inv) (hc : c.toNat < s.cfg.chCount) (hchan : s.bit .chan c.toNat = false)

include hs hc hchan

theorem runAlone_undoChan : UndoneTo s c st ((undoChan c st).runAlone ((s.setBit .chan c.toNat true).answered x es)) := by
  obtain ⟨hltChan, -⟩ := hs.lt_cap_of_channel hc
  rw [undoChan, runAlone_release_acquired hltChan (hs.lt_length hltChan) hchan]
  exact runAlone_undoChannel hc

variable (hcc : s.bit .cc c.toNat = false)

include hcc

theorem runAlone_undoCc :
    UndoneTo s c st
      ((undoCc c st).runAlone (((s.setBit .chan c.toNat true).setBit .cc c.toNat true).answered x es)) := by
  obtain ⟨-, hltCc⟩ := hs.lt_cap_of_channel hc
  have hrelease := runAlone_release_acquired (s := s.setBit .chan c.toNat true) (x := x) (es := es) hltCc
    (hs.lt_length hltCc) hcc (undoChan c st)
  rw [undoCc, hrelease]
  exact runAlone_undoChan hs hc hchan

theorem runAlone_undoSlot {slot : Word} (hslot : lowestFree (s.bm .slot) = some slot.toNat) :
    UndoneTo s c st ((undoSlot c slot st).runAlone ((s.acquiredTriple c.toNat slot.toNat).answered x es)) := by
  obtain ⟨hlen, hfree, -⟩ := (lowestFree_eq_some _ _).1 hslot
  have hcap : slot.toNat < s.cfg.cap .slot := by rwa [← hs.bm_length]
  have hrelease := runAlone_release_acquired (s := (s.setBit .chan c.toNat true).setBit .cc c.toNat true) (b := .slot)
    (x := x) (es := es) hcap hlen hfree (undoCc c st)
  rw [undoSlot, State.acquiredTriple, hrelease]
  exact runAlone_undoCc hs hc hchan hcc

end Acquire

/-! ### The outcomes of the acquisition -/

theorem checkM2m_mem {q : SynthRequest} {st : Status} (h : checkM2m q = some st) : st ∈ [.sizeMismatch, .unsupported] := by
  rw [checkM2m_eq] at h
  split_ifs at h <;> cases h <;> decide

theorem checkPeriph_mem {q : SynthRequest} {st : Status} (h : checkPeriph q = some st) :
    st ∈ [.sizeMismatch, .unsupported] := by
  rw [checkPeriph_eq] at h
  split_ifs at h <;> cases h <;> decide

/-- The statuses of SYNTH (41_synthesizer.md R61). -/
theorem synthesize_error_mem {o : CcountOverflow} {q : SynthRequest} {st : Status} (h : synthesize o q = .error st) :
    st ∈ [.sizeMismatch, .unsupported, .unsupportedDirection] := by
  have widen : st ∈ [.sizeMismatch, .unsupported] → st ∈ [.sizeMismatch, .unsupported, .unsupportedDirection] :=
    fun hst => List.mem_append_left [Status.unsupportedDirection] hst
  by_cases h1 : q.direction = 1
  · rw [synthesize_memToMem o h1] at h
    cases hcheck : checkM2m q with
    | none => rw [hcheck] at h; cases h
    | some st' => rw [hcheck] at h; cases h; exact widen (checkM2m_mem hcheck)
  by_cases hp : q.direction = 2 ∨ q.direction = 3
  · rw [synthesize_peripheral o hp] at h
    cases hcheck : checkPeriph q with
    | none =>
      rw [hcheck, Option.elim_none] at h
      cases hcount : countsPeriph o q with
      | none => rw [hcount] at h; cases h; decide
      | some k => rw [hcount] at h; cases h
    | some st' => rw [hcheck] at h; cases h; exact widen (checkPeriph_mem hcheck)
  · rw [synthesize_unsupported_direction o h1 hp] at h
    cases h
    decide

theorem synthResponse_status_mem (o : CcountOverflow) (q : SynthRequest) :
    (synthResponse o q).status = .ok ∨ (synthResponse o q).status ∈ [.sizeMismatch, .unsupported, .unsupportedDirection] := by
  cases h : synthesize o q with
  | error st => exact .inr (by rw [synthResponse_of_error h]; exact synthesize_error_mem h)
  | ok d => exact .inl (by rw [synthResponse_of_ok h])

/-- What CONFIGURE's acquisition needs to succeed in state `s`: the channel's bits of CHAN and CC free, `slot` the lowest free
descriptor slot, and a request that synthesizes. -/
structure Acquirable (s : State) (c : Word) (req : ConfigureRequest) (slot : Word) : Prop where
  chan : s.bit .chan c.toNat = false
  cc : s.bit .cc c.toNat = false
  slot : lowestFree (s.bm .slot) = some slot.toNat
  synth : (synthResponse s.cfg.ccountOverflow (channelRequest c req.fields)).status = .ok

section Acquire

variable {s : State} {c : Word} {req : ConfigureRequest} (hs : s.Inv) (hc : c.toNat < s.cfg.chCount)

include hs hc

theorem runAlone_configureAcquire_of_free {slot : Word} (hchan : s.bit .chan c.toNat = false)
    (hcc : s.bit .cc c.toNat = false) (hslot : lowestFree (s.bm .slot) = some slot.toNat) :
    (configureAcquire c req).runAlone s =
      (synthElse (channelRequest c req.fields) (undoSlot c slot) (configurePublish c slot req)).runAlone
        ((s.acquiredTriple c.toNat slot.toNat).answered ⟨.ok, { w0 := slot }⟩ s.evt) := by
  obtain ⟨hltChan, hltCc⟩ := hs.lt_cap_of_channel hc
  have hword : natWord slot.toNat = slot := (BitVec.ofNat_toNat ..).trans (BitVec.setWidth_eq slot)
  rw [configureAcquire_eq, ← s.answered_self, runAlone_acquireElse_of_free hltChan hchan,
    runAlone_acquireElse_of_free (s := s.setBit .chan c.toNat true) (b := .cc) hltCc hcc,
    runAlone_acquireSlotElse_of_some (s := (s.setBit .chan c.toNat true).setBit .cc c.toNat true) hslot, hword]
  rfl

theorem runAlone_configureAcquire_of_acquirable {slot : Word} (h : Acquirable s c req slot) :
    ∃ d x es, (configureAcquire c req).runAlone s =
      (configurePublish c slot req d).runAlone ((s.acquiredTriple c.toNat slot.toNat).answered x es) := by
  obtain ⟨x, es, hsynth⟩ := runAlone_synthElse_of_ok (s := s.acquiredTriple c.toNat slot.toNat) h.synth
    (undoSlot c slot) (configurePublish c slot req)
  exact ⟨_, x, es, (runAlone_configureAcquire_of_free hs hc h.chan h.cc h.slot).trans hsynth⟩

/-- The acquisition ends with one of the statuses of steps 2 and 3 and everything undone, or finds what it needs. -/
theorem configureAcquire_cases :
    (∃ st ∈ [.allocationFailed, .sizeMismatch, .unsupported, .unsupportedDirection],
      UndoneTo s c st ((configureAcquire c req).runAlone s)) ∨ ∃ slot, Acquirable s c req slot := by
  obtain ⟨hltChan, hltCc⟩ := hs.lt_cap_of_channel hc
  cases hchan : s.bit .chan c.toNat with
  | true =>
    refine .inl ⟨.allocationFailed, by decide, ?_⟩
    rw [configureAcquire_eq, ← s.answered_self, runAlone_acquireElse_of_taken hltChan hchan]
    exact runAlone_undoChannel hc
  | false =>
    have hfirst (stop next : Prog) := runAlone_acquireElse_of_free (x := s.resp) (es := s.evt) hltChan hchan stop next
    cases hcc : s.bit .cc c.toNat with
    | true =>
      refine .inl ⟨.allocationFailed, by decide, ?_⟩
      rw [configureAcquire_eq, ← s.answered_self, hfirst,
        runAlone_acquireElse_of_taken (s := s.setBit .chan c.toNat true) (b := .cc) hltCc hcc]
      exact runAlone_undoChan hs hc hchan
    | false =>
      have hsecond (stop next : Prog) (x : Response) := runAlone_acquireElse_of_free (s := s.setBit .chan c.toNat true)
        (b := .cc) (x := x) (es := s.evt) hltCc hcc stop next
      cases hslot : lowestFree (s.bm .slot) with
      | none =>
        refine .inl ⟨.allocationFailed, by decide, ?_⟩
        rw [configureAcquire_eq, ← s.answered_self, hfirst, hsecond,
          runAlone_acquireSlotElse_of_none (s := (s.setBit .chan c.toNat true).setBit .cc c.toNat true) hslot]
        exact runAlone_undoCc hs hc hchan hcc
      | some j =>
        obtain ⟨hlen, -⟩ := (lowestFree_eq_some _ _).1 hslot
        rw [hs.bm_length] at hlen
        rw [← toNat_natWord_of_lt_cap hs.cfg_valid hlen] at hslot
        by_cases hsynth : (synthResponse s.cfg.ccountOverflow (channelRequest c req.fields)).status = .ok
        · exact .inr ⟨_, hchan, hcc, hslot, hsynth⟩
        · obtain ⟨x, es, hstop⟩ := runAlone_synthElse_of_ne_ok (s := s.acquiredTriple c.toNat (natWord j).toNat) hsynth
            (undoSlot c (natWord j)) (configurePublish c (natWord j) req)
          have hst := (synthResponse_status_mem _ _).resolve_left hsynth
          refine .inl ⟨_, List.mem_cons_of_mem _ hst, ?_⟩
          rw [runAlone_configureAcquire_of_free hs hc hchan hcc hslot, hstop]
          exact runAlone_undoSlot hs hc hchan hcc hslot

end Acquire

end Sys2Proof.Machine

namespace Sys2Proof.Machine

/-! ## CONFIGURE, steps 4 and 5: the channel published (R107, R108) -/

/-- The channel slot that CONFIGURE publishes. -/
def publishedSlot (req : ConfigureRequest) : ChannelSlot :=
  { dir := Direction.ofBits (req.fields.direction.setWidth 2), alloc := true, cben := req.callback }

theorem publishedSlot_eq {req : ConfigureRequest} {v : Bool} (h : req.callback = v) :
    publishedSlot req = ⟨(publishedSlot req).dir, true, v⟩ := by
  subst h
  rfl

/-- What publishing channel `c` over descriptor slot `slot` leaves in state `t`, reached from `s`. -/
structure Published (s t : State) (c slot : Word) (req : ConfigureRequest) : Prop where
  bitmaps : KeepsBitmaps s t
  entry : t.slotAt c.toNat = publishedSlot req
  mapping : t.engine.mapping[(channelOf c).val] = some slot
  descriptor : (getDescriptor slot.toNat t.engine.descriptors).isSome = true
  enabled : req.callback = true → t.ien.getLsbD c.toNat = true

/-- The engine after ENG_MAP and ENG_PROGRAM. -/
def State.programmed (s : State) (c slot : Word) (d : Words8) : State :=
  engineOps [.map (channelOf c) slot, .program slot d] s

theorem programmed_mapping (s : State) (c slot : Word) (d : Words8) :
    (s.programmed c slot d).engine.mapping[(channelOf c).val] = some slot :=
  Vector.getElem_set_self ..

theorem programmed_descriptor (s : State) (c slot : Word) (d : Words8) :
    (getDescriptor slot.toNat (s.programmed c slot d).engine.descriptors).isSome = true :=
  Option.isSome_iff_exists.2 ⟨d, getDescriptor_putDescriptor ..⟩

/-- Registering the callback: the channel's completion is disabled, its slot written, and enabled again (R108). -/
theorem runAlone_register {s : State} {c : Word} (hc : c.toNat < s.cfg.chCount) (h64 : c.toNat < 64) (dir : Direction) :
    (cmdThen (.ienClr c) <| cmdThen (.slotWrite c dir true true) <| cmdThen (.ienSet c) <| ret .ok).runAlone s =
      some ({ s.setSlot c.toNat ⟨dir, true, true⟩ with
        ien := maskSet (maskClear s.ien c.toNat) c.toNat, gs := gsOnEnable s.gs s.cv c.toNat,
        resp := ⟨.ok, Words8.zero⟩ }, ⟨.ok, none⟩) := by
  refine (runAlone_cmdThen_ok rfl (exec_ienClr_of_lt h64) _).trans ?_
  refine (runAlone_cmdThen_ok rfl (exec_slotWrite_of_lt ?_) _).trans ?_
  · exact hc
  exact runAlone_cmdThen_ok rfl (exec_ienSet_of_lt h64) _

section Publish

variable {s : State} {c : Word} (hc : c.toNat < s.cfg.chCount) (hlen : c.toNat < s.chs.length) (slot : Word)
  {req : ConfigureRequest} (d : Words8)

include hc hlen

theorem runAlone_configurePublish_of_no_callback (hcallback : req.callback = false) :
    ∃ t, (configurePublish c slot req d).runAlone s = some (t, ⟨.ok, none⟩) ∧ Published s t c slot req := by
  have hrun : (configurePublish c slot req d).runAlone s =
      (cmdThen (.slotWrite c (publishedSlot req).dir true false) <| ret .ok).runAlone (s.programmed c slot d) := by
    rw [configurePublish, hcallback]
    rfl
  have hwrite := exec_slotWrite_of_lt (s := s.programmed c slot d) (dir := (publishedSlot req).dir) (alloc := true)
    (cben := false) hc
  refine ⟨_, hrun.trans (runAlone_cmdThen_ok rfl hwrite _), ⟨⟨rfl, rfl, rfl⟩, ?_, programmed_mapping s c slot d,
    programmed_descriptor s c slot d, fun h => absurd (hcallback.symm.trans h) (by decide)⟩⟩
  exact (slotAt_setSlot_same (s := s.programmed c slot d) hlen _).trans (publishedSlot_eq hcallback).symm

theorem runAlone_configurePublish_of_callback (h64 : c.toNat < 64) (hcallback : req.callback = true) :
    ∃ t, (configurePublish c slot req d).runAlone s = some (t, ⟨.ok, none⟩) ∧ Published s t c slot req := by
  have hrun : (configurePublish c slot req d).runAlone s =
      (cmdThen (.ienClr c) <| cmdThen (.slotWrite c (publishedSlot req).dir true true) <| cmdThen (.ienSet c) <|
        ret .ok).runAlone (s.programmed c slot d) := by
    rw [configurePublish, hcallback]
    rfl
  refine ⟨_, hrun.trans (runAlone_register (s := s.programmed c slot d) hc h64 _), ⟨⟨rfl, rfl, rfl⟩, ?_,
    programmed_mapping s c slot d, programmed_descriptor s c slot d, fun _ => ?_⟩⟩
  · exact (slotAt_setSlot_same (s := s.programmed c slot d) hlen _).trans (publishedSlot_eq hcallback).symm
  · rw [getLsbD_maskSet _ _ _ h64, decide_eq_true rfl, Bool.or_true]

theorem runAlone_configurePublish (h64 : c.toNat < 64) (req : ConfigureRequest) :
    ∃ t, (configurePublish c slot req d).runAlone s = some (t, ⟨.ok, none⟩) ∧ Published s t c slot req := by
  cases hcallback : req.callback with
  | true => exact runAlone_configurePublish_of_callback hc hlen slot d h64 hcallback
  | false => exact runAlone_configurePublish_of_no_callback hc hlen slot d hcallback

end Publish

/-! ## CONFIGURE -/

/-- The state after SLOT_TAS: `ALLOC` set, the old flag in the response. -/
def State.testedAndSet (s : State) (c : Word) : State :=
  (s.setSlot c.toNat { s.slotAt c.toNat with alloc := true }).respond .ok { w0 := bitWord (s.slotAt c.toNat).alloc }

theorem keepsScan_testedAndSet (s : State) (c : Word) : KeepsScan s (s.testedAndSet c) :=
  (KeepsScan.setSlot ..).trans (.bookkeeping _)

theorem getLsbD_bitWord_zero (b : Bool) : (bitWord b).getLsbD 0 = b := by cases b <;> rfl

section Configure

variable {s : State} {c : Word} {req : ConfigureRequest}

theorem runAlone_progConfigure_of_ge (hc : s.cfg.chCount ≤ c.toNat) :
    (progConfigure c req).runAlone s = some (s.respond .invalidChannel Words8.zero, ⟨.invalidChannel, none⟩) :=
  runAlone_guard_fail rfl (exec_slotTas_of_ge hc) (by decide)

theorem runAlone_progConfigure_of_not_alloc (hc : c.toNat < s.cfg.chCount) (ha : (s.slotAt c.toNat).alloc = false) :
    (progConfigure c req).runAlone s = (configureAcquire c req).runAlone (s.testedAndSet c) := by
  refine (runAlone_guard_ok rfl (exec_slotTas_of_lt hc)).trans ?_
  exact congrArg (Prog.runAlone · _) (if_neg (by rw [getLsbD_bitWord_zero, ha]; decide))

/-- CONFIGURE of an allocated channel after its inner DECONFIGURE returned `st`. -/
def reconfigure (c : Word) (req : ConfigureRequest) (st : Status) : Prog :=
  if st ≠ .ok then ret st else cmdThen (.slotTas c) <| configureAcquire c req

theorem runAlone_progConfigure_of_alloc (hc : c.toNat < s.cfg.chCount) (ha : (s.slotAt c.toNat).alloc = true) :
    (progConfigure c req).runAlone s = (deconfigureThen c (reconfigure c req)).runAlone (s.testedAndSet c) := by
  refine (runAlone_guard_ok rfl (exec_slotTas_of_lt hc)).trans ?_
  exact congrArg (Prog.runAlone · _) (if_pos (by rw [getLsbD_bitWord_zero, ha]))

theorem runAlone_reconfigure_ok (hc : c.toNat < s.cfg.chCount) :
    (reconfigure c req .ok).runAlone s = (configureAcquire c req).runAlone (s.testedAndSet c) :=
  runAlone_cmdThen_ok rfl (exec_slotTas_of_lt hc) _

end Configure

end Sys2Proof.Machine

namespace Sys2Proof.Machine

/-! ## CONFIGURE: what it leaves (R114, R115) -/

/-- DECONFIGURE of an allocated channel returns OK or CANCELLED, whatever it goes on with. -/
theorem runAlone_deconfigureThen_cases {s : State} {c : Word} (hs : s.Inv) (hc : c.toNat < s.cfg.chCount)
    (ha : (s.slotAt c.toNat).alloc = true) :
    ∃ st t, (st = .ok ∨ st = .cancelled) ∧ ∀ k, (deconfigureThen c k).runAlone s = (k st).runAlone t := by
  obtain ⟨-, -, -, -, hcfg, -⟩ := keepsBlock_unmapped s c
  have hc' : c.toNat < (s.unmapped c).cfg.chCount := hcfg ▸ hc
  by_cases hheld : (s.unmapped c).HoldsTriple c.toNat (s.mappedSlot c).toNat
  · exact ⟨.ok, _, .inl rfl, fun k => (runAlone_deconfigureThen_of_alloc k hc ha).trans
      (runAlone_releaseTriple_of_held (hs.unmapped c) hc' hheld k)⟩
  · obtain ⟨b, hb⟩ := not_forall.1 hheld
    rw [Bool.not_eq_true] at hb
    obtain ⟨t, ht, -⟩ := runAlone_releaseTriple_of_not_held (slot := s.mappedSlot c) (hs.unmapped c) hc'
      (by cases b with
        | chan => exact .inl hb
        | cc => exact .inr (.inl hb)
        | slot => exact .inr (.inr hb))
    exact ⟨.cancelled, t, .inr rfl, fun k => (runAlone_deconfigureThen_of_alloc k hc ha).trans (ht k)⟩

section Outcome

variable {s t : State} {c : Word} {req : ConfigureRequest} {r : ProcResult} (hs : s.Inv)

include hs

/-- A CONFIGURE that is not refused and not cancelled ends as its acquisition does, from a state that meets the invariant. -/
theorem progConfigure_cases (h : (progConfigure c req).runAlone s = some (t, r)) :
    r.status ∈ [.invalidChannel, .cancelled] ∨
      c.toNat < s.cfg.chCount ∧ ∃ u : State, u.Inv ∧ u.cfg = s.cfg ∧ (configureAcquire c req).runAlone u = some (t, r) := by
  by_cases hc : c.toNat < s.cfg.chCount
  · have hinv := hs.of_keepsScan (keepsScan_testedAndSet s c)
    cases ha : (s.slotAt c.toNat).alloc with
    | false => exact .inr ⟨hc, _, hinv, rfl, (runAlone_progConfigure_of_not_alloc hc ha).symm.trans h⟩
    | true =>
      have ha' : ((s.testedAndSet c).slotAt c.toNat).alloc = true :=
        congrArg ChannelSlot.alloc (slotAt_setSlot_same (hs.lt_chs_length hc) _)
      obtain ⟨st, u, hst, hdeconfigure⟩ := runAlone_deconfigureThen_cases hinv hc ha'
      rw [runAlone_progConfigure_of_alloc hc ha, hdeconfigure] at h
      rcases hst with rfl | rfl
      · have hscan : KeepsScan (s.testedAndSet c) u := runAlone_keepsScan (hdeconfigure ret)
        have hc' : c.toNat < u.cfg.chCount := hscan.cfg ▸ hc
        rw [runAlone_reconfigure_ok hc'] at h
        exact .inr ⟨hc, _, (hinv.of_keepsScan hscan).of_keepsScan (keepsScan_testedAndSet u c), hscan.cfg, h⟩
      · cases h
        exact .inl (by decide)
  · rw [runAlone_progConfigure_of_ge (Nat.le_of_not_lt hc)] at h
    cases h
    exact .inl (by decide)

theorem bit_acquiredTriple {slot : Nat} (hc : c.toNat < s.cfg.chCount) (hslot : slot < s.cfg.cap .slot) (b : Bitmap)
    (j : Nat) :
    (s.acquiredTriple c.toNat slot).bit b j = (s.bit b j || decide (j = tripleIndex c.toNat slot b)) := by
  have hset := bit_setBit_true (hs.lt_length (hs.tripleIndex_lt_cap hc hslot b)) j
  cases b with
  | chan => exact hset
  | cc => exact hset
  | slot => exact hset

/-- An acquisition that finds what it needs returns OK; it takes the triple, and the channel is published. -/
theorem runAlone_configureAcquire_ok {slot : Word} (hc : c.toNat < s.cfg.chCount) (h : Acquirable s c req slot) :
    ∃ t, (configureAcquire c req).runAlone s = some (t, ⟨.ok, none⟩) ∧
      Published (s.acquiredTriple c.toNat slot.toNat) t c slot req := by
  obtain ⟨d, x, es, hacquire⟩ := runAlone_configureAcquire_of_acquirable hs hc h
  have h64 : c.toNat < 64 := hs.channelOf_val hc ▸ (channelOf c).isLt
  obtain ⟨t, hrun, hpub⟩ := runAlone_configurePublish
    (s := (s.acquiredTriple c.toNat slot.toNat).answered x es) hc (hs.lt_chs_length hc) slot d h64 req
  exact ⟨t, hacquire.trans hrun, ⟨hpub.bitmaps, hpub.entry, hpub.mapping, hpub.descriptor, hpub.enabled⟩⟩

end Outcome

/-- What a CONFIGURE of channel `c` that returned OK with descriptor slot `slot` leaves: the channel's triple is held, the slot
being the lowest that was free, the channel is published, and the request synthesizes. -/
structure Configured (t : State) (c slot : Word) (req : ConfigureRequest) : Prop where
  channel : c.toNat < t.cfg.chCount
  held : t.HoldsTriple c.toNat slot.toNat
  below_held : ∀ j, j < slot.toNat → t.bit .slot j = true
  entry : t.slotAt c.toNat = publishedSlot req
  mapping : t.engine.mapping[(channelOf c).val] = some slot
  descriptor : (getDescriptor slot.toNat t.engine.descriptors).isSome = true
  enabled : req.callback = true → t.ien.getLsbD c.toNat = true
  synth : (synthResponse t.cfg.ccountOverflow (channelRequest c req.fields)).status = .ok

theorem configured_of_progConfigure {s t : State} {c : Word} {req : ConfigureRequest} {r : ProcResult} (hs : s.Inv)
    (h : (progConfigure c req).runAlone s = some (t, r)) (hr : r.status = .ok) :
    c.toNat < s.cfg.chCount ∧ ∃ slot, Configured t c slot req := by
  obtain hst | ⟨hc, u, hu, hcfg, hacquire⟩ := progConfigure_cases hs h
  · simp [hr] at hst
  rw [← hcfg] at hc
  obtain ⟨st, hst, es, hundone⟩ | ⟨slot, hacq⟩ := configureAcquire_cases (req := req) hu hc
  · rw [hacquire] at hundone
    cases hundone
    cases hr
    exact absurd hst (by decide)
  obtain ⟨t', hrun, hpub⟩ := runAlone_configureAcquire_ok hu hc hacq
  rw [hacquire] at hrun
  cases hrun
  obtain ⟨hlen, hfree, hbelow⟩ := (lowestFree_eq_some _ _).1 hacq.slot
  have hslot : slot.toNat < u.cfg.cap .slot := by rwa [← hu.bm_length]
  have hbits := bit_acquiredTriple hu hc hslot
  have hbit (b : Bitmap) (j : Nat) : t.bit b j = (u.acquiredTriple c.toNat slot.toNat).bit b j :=
    bit_congr (bm_eq_of_keepsBitmaps hpub.bitmaps b) j
  have hcfgt : t.cfg = u.cfg := (runAlone_keepsHost h).1.trans hcfg.symm
  refine ⟨hcfg ▸ hc, slot, hcfgt ▸ hc, fun b => ?_, fun j hj => ?_, hpub.entry, hpub.mapping, hpub.descriptor, hpub.enabled,
    hcfgt ▸ hacq.synth⟩
  · rw [hbit, hbits, decide_eq_true rfl, Bool.or_true]
  · rw [hbit, hbits]
    exact Bool.or_eq_true_iff.2 (.inl (hbelow j hj))

/-- Settles O56: a CONFIGURE that returns OK leaves the channel configured. -/
theorem configureOwnsItsTriple : Obligations.ConfigureOwnsItsTriple := by
  intro s t c req r hs h hr
  obtain ⟨hc, slot, hconf⟩ := configured_of_progConfigure hs h hr
  exact ⟨hc, hconf.held .chan, hconf.held .cc, ⟨slot, hconf.held .slot, hconf.mapping, hconf.descriptor⟩, hconf.entry, hconf.enabled⟩

/-- Settles O57: of a channel not allocated CONFIGURE is its acquisition, and a failed acquisition is undone. -/
theorem failedConfigureReleasesEverything : Obligations.FailedConfigureReleasesEverything := by
  intro s t c req r hs hc ha h hr
  rw [runAlone_progConfigure_of_not_alloc hc ha] at h
  have hinv := hs.of_keepsScan (keepsScan_testedAndSet s c)
  obtain ⟨st, -, es, hundone⟩ | ⟨slot, hacq⟩ := configureAcquire_cases (req := req) hinv hc
  · rw [h] at hundone
    cases hundone
    have hlen := hs.lt_chs_length hc
    have hslotAt (j : Nat) := slotAt_setSlot (s.testedAndSet c) c.toNat j ChannelSlot.clear (hinv.lt_chs_length hc)
    refine ⟨fun b j => bit_congr (by cases b <;> rfl) j, (hslotAt _).trans (if_pos rfl), fun j hj => ?_, rfl⟩
    refine (hslotAt j).trans ((if_neg hj).trans ?_)
    exact (slotAt_setSlot s c.toNat j _ hlen).trans (if_neg hj)
  · obtain ⟨t', hrun, -⟩ := runAlone_configureAcquire_ok hinv hc hacq
    rw [h] at hrun
    cases hrun
    exact absurd rfl hr

/-! ### A second CONFIGURE -/

theorem bit_testedAndSet (s : State) (c : Word) (b : Bitmap) (j : Nat) : (s.testedAndSet c).bit b j = s.bit b j :=
  bit_congr (by cases b <;> rfl) j

/-- DECONFIGURE of a mapped channel that holds its triple takes just the triple from the bits that were set. -/
theorem runAlone_deconfigureThen_of_held {s : State} {c slot : Word} (hs : s.Inv) (hc : c.toNat < s.cfg.chCount)
    (ha : (s.slotAt c.toNat).alloc = true) (hmap : s.engine.mapping[(channelOf c).val] = some slot)
    (hheld : s.HoldsTriple c.toNat slot.toNat) :
    ∃ t, (∀ k, (deconfigureThen c k).runAlone s = (k .ok).runAlone t) ∧
      ∀ b j, t.bit b j = (s.bit b j && decide (j ≠ tripleIndex c.toNat slot.toNat b)) := by
  obtain ⟨hbm, -, -, -, hcfg, -⟩ := keepsBlock_unmapped s c
  have hbit (b : Bitmap) (j : Nat) : s.bit b j = (s.unmapped c).bit b j := (bit_congr (bm_eq_of_keepsBitmaps hbm b) j).symm
  have hinv := hs.unmapped c
  have hc' : c.toNat < (s.unmapped c).cfg.chCount := hcfg ▸ hc
  have hheld' : (s.unmapped c).HoldsTriple c.toNat slot.toNat := fun b => (hbit b _).symm.trans (hheld b)
  refine ⟨((s.unmapped c).releasedTriple c.toNat slot.toNat).respond .ok Words8.zero, fun k => ?_, fun b j => ?_⟩
  · rw [runAlone_deconfigureThen_of_alloc k hc ha, mappedSlot_of_mapped hmap]
    exact runAlone_releaseTriple_of_held hinv hc' hheld' k
  · rw [bit_respond, hbit]
    exact bit_releasedTriple hinv hc' (hinv.lt_cap_of_bit (hheld' .slot)) b j

/-- The inner DECONFIGURE of a configured channel releases its triple, and its descriptor slot becomes the lowest free one, so
the acquisition finds what it needs. -/
theorem Configured.acquirable {t : State} {c slot : Word} {req : ConfigureRequest} (ht : t.Inv)
    (h : Configured t c slot req) :
    ∃ u : State, u.Inv ∧ u.cfg = t.cfg ∧ (progConfigure c req).runAlone t = (configureAcquire c req).runAlone u ∧
      Acquirable u c req slot ∧ ∀ b j, u.bit b j = (t.bit b j && decide (j ≠ tripleIndex c.toNat slot.toNat b)) := by
  have hc := h.channel
  have hinv := ht.of_keepsScan (keepsScan_testedAndSet t c)
  have ha : (t.slotAt c.toNat).alloc = true := congrArg ChannelSlot.alloc h.entry
  have ha' : ((t.testedAndSet c).slotAt c.toNat).alloc = true :=
    congrArg ChannelSlot.alloc (slotAt_setSlot_same (ht.lt_chs_length hc) _)
  obtain ⟨u, hdeconfigure, hbits⟩ := runAlone_deconfigureThen_of_held (s := t.testedAndSet c) hinv hc ha' h.mapping
    fun b => (bit_testedAndSet ..).trans (h.held b)
  have hscan : KeepsScan (t.testedAndSet c) u := runAlone_keepsScan (hdeconfigure ret)
  have hc' : c.toNat < u.cfg.chCount := hscan.cfg ▸ hc
  have hinv' := (hinv.of_keepsScan hscan).of_keepsScan (keepsScan_testedAndSet u c)
  have hbits' (b : Bitmap) (j : Nat) :
      (u.testedAndSet c).bit b j = (t.bit b j && decide (j ≠ tripleIndex c.toNat slot.toNat b)) := by
    rw [bit_testedAndSet, hbits, bit_testedAndSet]
  have hfree (b : Bitmap) : (u.testedAndSet c).bit b (tripleIndex c.toNat slot.toNat b) = false := by
    rw [hbits', decide_eq_false (not_not_intro rfl), Bool.and_false]
  have hcap : slot.toNat < (u.testedAndSet c).cfg.cap .slot := by
    rw [(keepsScan_testedAndSet u c).cfg, hscan.cfg]
    exact ht.lt_cap_of_bit (h.held .slot)
  have hrun : (progConfigure c req).runAlone t = (configureAcquire c req).runAlone (u.testedAndSet c) := by
    rw [runAlone_progConfigure_of_alloc hc ha, hdeconfigure, runAlone_reconfigure_ok hc']
  have hcfg : (u.testedAndSet c).cfg = t.cfg := hscan.cfg
  refine ⟨_, hinv', hcfg, hrun, ⟨hfree .chan, hfree .cc, ?_, hcfg ▸ h.synth⟩, hbits'⟩
  refine (lowestFree_eq_some _ _).2 ⟨hinv'.lt_length hcap, hfree .slot, fun j hj => (hbits' .slot j).trans ?_⟩
  rw [h.below_held j hj, Bool.true_and]
  exact decide_eq_true hj.ne

/-- Settles O58: the second CONFIGURE releases the triple and takes the same one. -/
theorem configureTwiceLeavesTheOccupancyOfOnce : Obligations.ConfigureTwiceLeavesTheOccupancyOfOnce := by
  intro s t c req r hs h hr
  obtain ⟨-, slot, hconf⟩ := configured_of_progConfigure hs h hr
  have ht := hs.of_keepsScan (runAlone_keepsScan h)
  obtain ⟨u, hu, hcfg, hrun, hacq, hbits⟩ := hconf.acquirable ht
  have hc : c.toNat < u.cfg.chCount := hcfg ▸ hconf.channel
  have hslot : slot.toNat < u.cfg.cap .slot := hcfg ▸ ht.lt_cap_of_bit (hconf.held .slot)
  obtain ⟨v, hacquire, hpub⟩ := runAlone_configureAcquire_ok hu hc hacq
  refine ⟨v, _, hrun.trans hacquire, rfl, fun b j => ?_, hpub.mapping.trans hconf.mapping.symm⟩
  rw [bit_congr (bm_eq_of_keepsBitmaps hpub.bitmaps b), bit_acquiredTriple hu hc hslot, hbits]
  by_cases hj : j = tripleIndex c.toNat slot.toNat b
  · simp [hj, hconf.held b]
  · simp [hj]

end Sys2Proof.Machine

namespace Sys2Proof.Machine

/-! ## INIT (R102) -/

/-- Nothing but the bitmaps and the response differs. -/
def KeepsAllButBitmaps (s t : State) : Prop :=
  KeepsSlots s t ∧ KeepsDispatcher s t ∧ KeepsEvents s t ∧ KeepsEnvironment s t

theorem KeepsAllButBitmaps.trans {s t u : State} (h₁ : KeepsAllButBitmaps s t) (h₂ : KeepsAllButBitmaps t u) :
    KeepsAllButBitmaps s u := by
  obtain ⟨hchs, ⟨hien, hgs, hdstate, hsnap⟩, hevt, hcfg, hcv, hengine, hreply, hhost, hresult, hdraws, hagenda⟩ := h₁
  obtain ⟨hchs', ⟨hien', hgs', hdstate', hsnap'⟩, hevt', hcfg', hcv', hengine', hreply', hhost', hresult', hdraws',
    hagenda'⟩ := h₂
  exact ⟨hchs'.trans hchs, ⟨hien'.trans hien, hgs'.trans hgs, hdstate'.trans hdstate, hsnap'.trans hsnap⟩, hevt'.trans hevt,
    hcfg'.trans hcfg, hcv'.trans hcv, hengine'.trans hengine, hreply'.trans hreply, hhost'.trans hhost,
    hresult'.trans hresult, hdraws'.trans hdraws, hagenda'.trans hagenda⟩

/-- A good line is one that BM_CLAIM accepts. -/
theorem ClaimTriple.Good.claimLimit {p : Params} {x : ClaimTriple} (h : x.Good p) :
    ∃ lim, Machine.claimLimit p x.kind = some lim ∧ x.last.toNat < lim := by
  obtain ⟨-, ⟨hkind, hlim⟩ | ⟨hkind, hlim⟩⟩ := h
  · exact ⟨p.chCount, by rw [hkind]; rfl, hlim⟩
  · exact ⟨p.slotMax, by rw [hkind]; rfl, hlim⟩

/-- One good line: its range is taken in its kind's targets. -/
theorem claim_of_good {s : State} {x : ClaimTriple} (hs : s.Inv) (hx : x.Good s.cfg) :
    ∃ t, exec (.bmClaim x.kind x.first x.last) s = .next t ∧ t.resp.status = .ok ∧
      (∀ b j, t.bit b j = (s.bit b j || decide (b ∈ claimTargets x.kind ∧ InRange x.first x.last j))) ∧
      KeepsAllButBitmaps s t := by
  obtain ⟨lim, hlim, hlast⟩ := hx.claimLimit
  obtain ⟨t, hexec, hresp, htarget, hother, hevt, hchs, hdispatcher, henv⟩ := claim_takes_range hs hlim hlast hx.1
  refine ⟨t, hexec, congrArg Response.status hresp, fun b j => ?_, hchs, hdispatcher, hevt, henv⟩
  by_cases hb : b ∈ claimTargets x.kind
  · rw [htarget b hb]
    simp only [hb, true_and]
  · rw [bit_congr (hother b hb)]
    simp [hb]

/-- Good lines are claimed one after the other. -/
theorem runAlone_progInit_of_good {s : State} {list : List ClaimTriple} (hs : s.Inv) (hgood : ∀ x ∈ list, x.Good s.cfg) :
    ∃ t, (progInit list).runAlone s = some (t, ⟨.ok, none⟩) ∧
      (∀ b j, t.bit b j =
        (s.bit b j || list.any fun x => decide (b ∈ claimTargets x.kind ∧ InRange x.first x.last j))) ∧
      KeepsAllButBitmaps s t := by
  induction list generalizing s with
  | nil => exact ⟨s, rfl, fun b j => (Bool.or_false _).symm, rfl, ⟨rfl, rfl, rfl, rfl⟩, rfl, keepsEnvironment_refl s⟩
  | cons x rest ih =>
    obtain ⟨hx, hrest⟩ := List.forall_mem_cons.1 hgood
    obtain ⟨t, hexec, hstatus, hbits, hkeeps⟩ := claim_of_good hs hx
    have hcfg : t.cfg = s.cfg := ((exec_answers _ s).of_next hexec).1
    obtain ⟨u, hrun, hbits', hkeeps'⟩ := ih (hs.of_keepsScan ((exec_keepsScan _ s).of_next hexec)) (hcfg ▸ hrest)
    refine ⟨u, ?_, fun b j => ?_, hkeeps.trans hkeeps'⟩
    · rw [progInit, runAlone_cmd rfl hexec, if_neg (not_not_intro hstatus), hrun]
    · rw [hbits', hbits, List.any_cons, Bool.or_assoc]

theorem chan_mem_claimTargets (k : ClaimKind) : .chan ∈ claimTargets k ↔ k = .channelPool := by cases k <;> decide

theorem cc_mem_claimTargets (k : ClaimKind) : .cc ∈ claimTargets k ↔ k = .channelPool := by cases k <;> decide

theorem slot_mem_claimTargets (k : ClaimKind) : .slot ∈ claimTargets k ↔ k = .descriptorSlotPool := by cases k <;> decide

/-- Settles O60: the ranges of good lines add up line by line; the targets of a kind say which bitmaps they are set in. -/
theorem initClaimsEveryRange : Obligations.InitClaimsEveryRange := by
  intro s list hs hgood
  obtain ⟨t, hrun, hbits, hkeeps⟩ := runAlone_progInit_of_good hs hgood
  refine ⟨t, hrun, fun j => ?_, fun j => ?_, fun j => ?_, hkeeps⟩
  · simpa only [chan_mem_claimTargets] using hbits .chan j
  · simpa only [cc_mem_claimTargets] using hbits .cc j
  · simpa only [slot_mem_claimTargets] using hbits .slot j

/-! ## The statuses of the procedures (R116) -/

theorem exec_bmClaim_status (k : ClaimKind) (first last : Word) (s : State) :
    Answers (exec (.bmClaim k first last) s) fun t => t.resp.status ∈ [.ok, .invalidResourceRange] := by
  change Answers (execBmClaim k first last s) _
  unfold execBmClaim
  split
  · simp
  · split
    · simp
    · split
      · split <;> simp
      · simp

theorem progInit_status {list : List ClaimTriple} {s t : State} {r : ProcResult}
    (h : (progInit list).runAlone s = some (t, r)) : r.status ∈ [.ok, .invalidResourceRange] := by
  induction list generalizing s with
  | nil =>
    cases h
    decide
  | cons x rest ih =>
    obtain ⟨u, hexec, hstatus⟩ := exec_bmClaim_status x.kind x.first x.last s
    rw [progInit, runAlone_cmd rfl hexec] at h
    by_cases hok : u.resp.status = .ok
    · rw [if_neg (not_not_intro hok)] at h
      exact ih h
    · rw [if_pos hok] at h
      cases h
      exact hstatus

/-- The four procedures that begin with VALIDATE return one of its refusals, or the channel is allocated. -/
theorem status_of_validate {s t : State} {c : Word} {p : Procedure} {r : ProcResult}
    (hp : p ∈ [.start c, .stop c, .getStatus c, .deconfigure c]) (h : (procProg p).runAlone s = some (t, r)) :
    r.status ∈ p.statuses ∨ c.toNat < s.cfg.chCount ∧ (s.slotAt c.toNat).alloc = true := by
  obtain ⟨hrange, halloc⟩ := unusableChannelIsRefusedFirst s c (procProg p) (List.mem_map_of_mem (f := procProg) hp)
  have hrefusals : .invalidChannel ∈ p.statuses ∧ .notAllocated ∈ p.statuses := by
    simp only [List.mem_cons, List.not_mem_nil, or_false] at hp
    rcases hp with rfl | rfl | rfl | rfl <;> simp [Procedure.statuses]
  by_cases hc : c.toNat < s.cfg.chCount
  · cases ha : (s.slotAt c.toNat).alloc with
    | true => exact .inr ⟨hc, rfl⟩
    | false =>
      obtain ⟨u, hu, -⟩ := halloc hc ha
      cases hu.symm.trans h
      exact .inl hrefusals.2
  · cases (hrange (Nat.le_of_not_lt hc)).symm.trans h
    exact .inl hrefusals.1

theorem progConfigure_status {s t : State} {c : Word} {req : ConfigureRequest} {r : ProcResult} (hs : s.Inv)
    (h : (progConfigure c req).runAlone s = some (t, r)) : r.status ∈ (Procedure.configure c req).statuses := by
  obtain hst | ⟨hc, u, hu, hcfg, hacquire⟩ := progConfigure_cases hs h
  · exact List.subset_def.1 (by simp [Procedure.statuses]) hst
  rw [← hcfg] at hc
  obtain ⟨st, hst, es, hundone⟩ | ⟨slot, hacq⟩ := configureAcquire_cases (req := req) hu hc
  · rw [hacquire] at hundone
    cases hundone
    exact List.subset_def.1 (by simp [Procedure.statuses]) hst
  · obtain ⟨u', hrun, -⟩ := runAlone_configureAcquire_ok hu hc hacq
    rw [hacquire] at hrun
    cases hrun
    exact List.mem_cons_self

/-- Settles O59: each procedure by what it returns for an allocated channel, beside the refusals of VALIDATE. -/
theorem proceduresReturnTheirStatuses : Obligations.ProceduresReturnTheirStatuses := by
  intro s t p r hs h
  cases p with
  | init list => exact progInit_status h
  | configure c req => exact progConfigure_status hs h
  | start c =>
    obtain hst | ⟨hc, ha⟩ := status_of_validate (c := c) (by simp) h
    · exact hst
    · cases (runAlone_progStart_of_alloc hc ha).symm.trans h
      by_cases hdir : (s.slotAt c.toNat).dir = .idle <;> simp [hdir, Procedure.statuses]
  | stop c =>
    obtain hst | ⟨hc, ha⟩ := status_of_validate (c := c) (by simp) h
    · exact hst
    · cases (runAlone_stopThen_of_alloc ret hc ha).symm.trans h
      exact List.mem_cons_self
  | getStatus c =>
    obtain hst | ⟨hc, ha⟩ := status_of_validate (c := c) (by simp) h
    · exact hst
    · obtain ⟨u, hu, -⟩ := getStatusReportsByTheFormula s c hs hc ha
      cases hu.symm.trans h
      exact List.mem_cons_self
  | deconfigure c =>
    obtain hst | ⟨hc, ha⟩ := status_of_validate (c := c) (by simp) h
    · exact hst
    · obtain ⟨st, u, hst, hdeconfigure⟩ := runAlone_deconfigureThen_cases hs hc ha
      cases (hdeconfigure ret).symm.trans h
      rcases hst with rfl | rfl <;> simp [Procedure.statuses]

end Sys2Proof.Machine

namespace Sys2Proof.Machine

/-! ## The exceptions' obligation (60_exceptions.md R117) -/

/-- Settles O45: with valid parameters `step` runs the agenda, and every agent's move answers a next state. -/
theorem everyStepCompletes : Obligations.EveryStepCompletes := by
  intro s hvalid
  obtain ⟨t, ht, -⟩ := runAgenda_answers s
  exact ⟨t, (step_of_valid hvalid).trans ht⟩

end Sys2Proof.Machine

namespace Sys2Proof

/-! # Reset and hazards (70_reset_and_hazards.md)

What power-on and reset leave (R129, R130), quiescence within the scan under way and one more invocation (R140), and the states
in which no invocation can start (R131). -/

/-- An encoded instruction decodes to no other one, whether or not it is well-formed. -/
theorem eq_of_decode_encode {i j : Instr} (h : decode (encode i) = .command j) : i = j := by
  obtain ⟨-, op, hop, -, hj⟩ := decode_eq_command_iff.1 h
  simp only [encode, opcField_commandWord, Op.ofOpc_opc, Option.some.injEq] at hop
  subst hop
  simpa [encode] using hj

end Sys2Proof

namespace Sys2Proof.Machine

/-! ## Reset (R129, R130) -/

/-- Settles O43: `State.reset` is one of the power-on states, with the parameters of R3 and no descriptor. -/
theorem powerOnHasTheInvariant : Obligations.PowerOnHasTheInvariant :=
  ⟨.powerOn (by decide) 0 rfl, fun _ cv _ hp he => .powerOn hp cv he⟩

theorem bm_resetBlock (s : State) (b : Bitmap) : (resetBlock s).bm b = List.replicate (s.cfg.cap b) false := by
  cases b <;> rfl

theorem bit_resetBlock (s : State) (b : Bitmap) (j : Nat) : (resetBlock s).bit b j = false := by
  rw [State.bit, bm_resetBlock, List.getD_eq_getElem?_getD, List.getElem?_getD_replicate_default_eq]

theorem slotAt_resetBlock (s : State) (c : Nat) : (resetBlock s).slotAt c = ChannelSlot.clear :=
  (List.getD_eq_getElem?_getD ..).trans (List.getElem?_getD_replicate_default_eq ..)

/-- Settles O44: the step is `resetBlock`, whose bitmaps and slot table are lists of one reset value. -/
theorem resetRestoresTheBlock : Obligations.ResetRestoresTheBlock := by
  intro s hs
  refine ⟨_, step_push s .reset hs, bit_resetBlock s, fun b => ?_, List.length_replicate, slotAt_resetBlock s, ?_⟩
  · rw [bm_resetBlock, List.length_replicate]
  · exact ⟨rfl, rfl, rfl, rfl, rfl, rfl, keepsEnvironment_refl s⟩

/-! ## Quiescence (R140) -/

/-- From an idle state at most one invocation runs: D_EXIT finds `CV` empty and clears `GS`. -/
theorem exists_quiescent_of_idle {s : State} (hd : s.dstate = .idle) : ∃ n, n ≤ 66 ∧ Quiescent (dispatcherSteps n s) := by
  cases hgs : s.gs with
  | false => exact ⟨0, Nat.zero_le _, hd, hgs⟩
  | true =>
    obtain ⟨evs, n, h, -⟩ := dispatcherSteps_invocation s hd hgs
    refine ⟨_, Nat.add_le_add_right (length_setCodes_le s.cv) 2, ?_⟩
    rw [h]
    exact ⟨hd, rfl⟩

/-- The rest of an invocation under way: a D_BIT for each code left in `SNAP`, then D_EXIT. -/
theorem exists_idle_of_scanning {s : State} (hd : s.dstate = .scanning) :
    ∃ n, n ≤ 65 ∧ (dispatcherSteps n s).dstate = .idle := by
  obtain ⟨evs, n, hscan, -⟩ := dispatcherSteps_scan s hd
  have hexit := dispatcherStep_of_snap_eq_zero (dispatcherSteps_scanning _ s hd le_rfl) (by rw [hscan])
  refine ⟨_, Nat.add_le_add_right (length_setCodes_le s.snap) 1, ?_⟩
  rw [dispatcherSteps_add]
  exact congrArg State.dstate hexit

/-- Settles O41: the rest of the invocation under way, if any, then at most one more. The invariant is not needed. -/
theorem quiescenceWithinTwoInvocations : Obligations.QuiescenceWithinTwoInvocations := by
  intro s _
  cases hd : s.dstate with
  | idle =>
    obtain ⟨n, hn, hq⟩ := exists_quiescent_of_idle hd
    exact ⟨n, hn.trans (by decide), hq⟩
  | scanning =>
    obtain ⟨m, hm, hidle⟩ := exists_idle_of_scanning hd
    obtain ⟨n, hn, hq⟩ := exists_quiescent_of_idle hidle
    exact ⟨m + n, Nat.add_le_add hm hn, dispatcherSteps_add m n s ▸ hq⟩

/-! ## Before the first enable (R131) -/

/-- No code is enabled, no invocation is requested and none is under way, as after reset. -/
def State.Disarmed (s : State) : Prop := s.ien = 0 ∧ s.gs = false ∧ s.dstate = .idle

/-- The operation is an IEN_SET. -/
def HostOp.Enables (op : HostOp) : Prop := ∃ i : Word, op = .command (.ienSet i)

namespace State.Disarmed

variable {s t : State}

theorem of_keepsDispatcher (hs : s.Disarmed) (h : KeepsDispatcher s t) : t.Disarmed := by
  obtain ⟨hien, hgs, hd⟩ := hs
  obtain ⟨hien', hgs', hd', -⟩ := h
  exact ⟨hien'.trans hien, hgs'.trans hgs, hd'.trans hd⟩

/-- Of the updates that the access table allows, enabling a code is the only one that can arm the dispatcher. -/
theorem of_commandWrites {op : Op} (hs : s.Disarmed) (hop : op ≠ .ienSet) (h : CommandWrites s op t) : t.Disarmed := by
  obtain ⟨hien, hgs, hd⟩ := hs
  refine ⟨?_, (h.gs_eq hop).trans hgs, h.keepsScan.dstate.trans hd⟩
  induction h with
  | nothing => exact hien
  | enable hset _ _ => exact absurd hset hop
  | setBm _ _ _ ih => exact (State.setBm_ien ..).trans ih
  | disable _ _ ih => exact (congrArg (maskClear · _) ih).trans BitVec.zero_and
  | respond _ ih | emit _ _ ih | setSlot _ _ ih => exact ih

theorem exec (hs : s.Disarmed) {i : Instr} (hi : ∀ j, i ≠ .ienSet j) : Answers (Machine.exec i s) State.Disarmed := by
  refine (exec_writes i s).mono fun _ => hs.of_commandWrites fun hop => ?_
  cases i with
  | ienSet j => exact hi j rfl
  | _ => cases hop

theorem port (hs : s.Disarmed) {r : Request} (hr : ∀ j, decode r ≠ .command (.ienSet j)) :
    Answers (Machine.port r s) State.Disarmed := by
  obtain ⟨i, hi, e⟩ | ⟨-, e⟩ := port_cases r s
  · exact e ▸ hs.exec fun j hj => hr j (hj ▸ hi)
  · exact ⟨_, e, hs⟩

theorem engineOp (hs : s.Disarmed) (op : EngineOp) : (Machine.engineOp op s).Disarmed := by
  obtain ⟨-, -, h, -⟩ := engineOp_keeps op s
  exact hs.of_keepsDispatcher h

theorem perform (hs : s.Disarmed) {op : HostOp} (hop : ¬ op.Enables) : Answers (Machine.perform op s) State.Disarmed := by
  cases op with
  | command i => exact hs.port fun j hj => hop ⟨j, congrArg _ (eq_of_decode_encode hj)⟩
  | engine e => exact ⟨_, rfl, hs.engineOp e⟩

theorem hostStep (hs : s.Disarmed) (hn : ∀ op ∈ s.nextHostOp, ¬ op.Enables) :
    Answers (Machine.hostStep s) State.Disarmed := by
  obtain ⟨-, h, r, e⟩ | ⟨op, hop, hstep⟩ := hostStep_cases s
  · exact ⟨_, e, hs⟩
  · obtain ⟨t, et, ht⟩ := hs.perform (hn op hop)
    obtain ⟨h, r, e⟩ := hstep t et
    exact ⟨_, e, ht⟩

/-- A call takes no step of its own procedure; one that waits lets the procedure under way take its next step. -/
theorem callProcedure (hs : s.Disarmed) (hn : ∀ op ∈ s.nextHostOp, ¬ op.Enables) (p : Procedure) :
    Answers (Machine.callProcedure p s) State.Disarmed := by
  unfold Machine.callProcedure
  split
  · obtain ⟨h, r, e⟩ := settleHost_eq { proc := p, replies := [] } s
    exact ⟨_, rfl, e ▸ hs⟩
  · exact hostStep (s := { s with agenda := .call p :: s.agenda }) hs hn

theorem dispatcherStep (hs : s.Disarmed) : (Machine.dispatcherStep s).Disarmed := by
  have ⟨_, hgs, hd⟩ := hs
  rwa [dispatcherStep_of_not_gs hd hgs]

/-- E_COMPLETE raises `GS` for an enabled code only (42_dispatcher.md R81). -/
theorem eComplete (hs : s.Disarmed) (i : Code) : (Machine.eComplete i s).Disarmed := by
  obtain ⟨hien, hgs, hd⟩ := hs
  exact ⟨hien, by simp [Machine.eComplete, gsOnComplete, hien, hgs], hd⟩

end State.Disarmed

theorem disarmed_resetBlock (s : State) : (resetBlock s).Disarmed := ⟨rfl, rfl, rfl⟩

/-- Settles O48: every agent's move keeps a disarmed state disarmed, as long as no IEN_SET is performed. -/
theorem noInvocationBeforeTheFirstEnable : Obligations.NoInvocationBeforeTheFirstEnable := by
  intro s t m hien hgs hd hcommand hhost h
  have hs : s.Disarmed := ⟨hien, hgs, hd⟩
  have hnext (hm : m = .host ∨ ∃ p, m = .call p) : ∀ op ∈ s.nextHostOp, ¬ op.Enables :=
    fun _ hop ⟨i, hi⟩ => hhost hm i (hi ▸ hop)
  suffices Answers (runMove m s) State.Disarmed from this.of_next (runMove_of_step_push h)
  cases m with
  | command r => exact hs.port fun j => hcommand r j rfl
  | engine op => exact ⟨_, rfl, hs.engineOp op⟩
  | call p => exact hs.callProcedure (hnext (.inr ⟨p, rfl⟩)) p
  | host => exact hs.hostStep (hnext (.inl rfl))
  | dispatcher => exact ⟨_, rfl, hs.dispatcherStep⟩
  | complete i => exact ⟨_, rfl, hs.eComplete i⟩
  | reset => exact ⟨_, rfl, disarmed_resetBlock s⟩

end Sys2Proof.Machine
